-- ==== Sys2Proof/Word.lean ====
section
/-! DEFINITION. The words of the block (spec 00_scope.md R7): bytes, nibbles and 11-bit CAN identifiers. All unsigned. -/

namespace Sys2Proof

/-- An 8-bit unsigned value, 0x00..0xFF (R7). -/
abbrev Byte := BitVec 8

/-- Half a byte: the PCI type or the PCI's low field (R31, R44). -/
abbrev Nibble := BitVec 4

/-- An 11-bit arbitration identifier (R14). -/
abbrev CanId := BitVec 11

end Sys2Proof
end

