-- ==== Sys2Proof/Config.lean ====
section
/-! DEFINITION. What an implementation fixes (spec 00_scope.md R6) and the free values the spec leaves open.
A configuration is data that State carries in its CFG_* registers; every statement about a step quantifies over the
state, so over every configuration. -/

namespace Sys2Proof

/-- The implementation parameters of R6 that have no fixed value. `minParamLen` is the table of R17, sparse:
a SID that is not listed has the entry 0b0000 (absent). -/
structure Configuration where
  reqId : CanId
  respId : CanId
  flagId : CanId
  minParamLen : List (Byte × BitVec 4)
  policy : BitVec 2
  deriving DecidableEq, Repr

/-- The errors of the reference reassembler (R95). -/
inductive ReassembleError where
  | empty
  | trailingFrames
  | zeroLength
  | lengthExceeds
  | badFF
  | badSeq
  | badCFLength
  | incomplete
  | badType
  deriving DecidableEq, Repr, Inhabited

namespace Config

/-- The minima of R17's defaults, as entries `PRESENT ++ MIN` (R6, R17, D5). -/
def defaultMinParamLen : List (Byte × BitVec 4) :=
  [(0x10, 0b1001), (0x11, 0b1001), (0x14, 0b1011), (0x22, 0b1010), (0x23, 0b1001), (0x27, 0b1001)]

/-- The configuration `State.reset` is built from. The spec gives no identifier values (R14, R15, G3): 0x000 and 0x001
are a DESIGN CHOICE (log 3). The flag identifier, the table and the policy have the spec's defaults (R16, R17, R18). -/
def default : Configuration :=
  { reqId := 0x000, respId := 0x001, flagId := 0x001, minParamLen := defaultMinParamLen, policy := 0b00 }

/-- Bytes of UDS message a single frame carries at most (R6). -/
abbrev sfCapacity : Nat := 7

/-- Bytes of UDS message a first frame carries (R6). -/
abbrev ffCapacity : Nat := 6

/-- Bytes of UDS message a consecutive frame carries at most (R6). -/
abbrev cfCapacity : Nat := 7

/-- T_MAX, the longest UDS message, SID included; also the size of RSP_BUF (R6, R21). -/
abbrev maxMessage : Nat := 4095

/-- The most bytes a classic CAN frame carries (R6). -/
abbrev maxFrame : Nat := 8

/-! Free values: handler-side facts the spec leaves open (log 10). The first argument is the number of the process
start, since R25, R100 and R126 fix them once per process. No body: nothing can be proved about their values. -/

/-- The byte of the 64 KiB Memory Image at a 16-bit address (R25, R100 "random"). -/
opaque memoryImage : Nat → BitVec 16 → Byte

/-- The 17 characters of the VIN, by index: 7-bit ASCII codes (R105). -/
opaque vin : Nat → Nat → BitVec 7

/-- The session-0x02 key constant of the 1-byte width class (R107, R126). -/
opaque session02Key1 : Nat → Byte

/-- The session-0x02 key constant of the 2-byte width class (R25). No rule of R107 uses it. -/
opaque session02Key2 : Nat → BitVec 16

/-- The 2-byte class's `mask` (G23: not stated). -/
opaque mask2 : Nat

/-- The initial `prev_seed` of the 1-byte history (G5: not stated). -/
opaque initialPrevSeed1 : Nat → Byte

/-- The initial `prev_seed` of the 2-byte history (G5: not stated). -/
opaque initialPrevSeed2 : Nat → BitVec 16

/-- The initial legacy "any access granted" flag (G5: not stated). -/
opaque initialLegacyFlag : Nat → Bool

/-- The error the reassembler gives for a single frame that is not strict, padded or with a length over 7 (R95: rejected,
the error is not named; log 21). -/
opaque looseSingleFrameError : ReassembleError

end Config

end Sys2Proof
end

