-- ==== Sys2Proof/Syntax.lean ====
section
/-! DEFINITION. The instructions: one constructor for each of the 17 rows of spec/opcode_table.json (30_encoding.md R50,
R51, R52). An instruction is a frame (R12, R55); its operands are the fields of the row and the bytes that follow. -/

namespace Sys2Proof

/-- The three places a frame is read at (log 12): the received frame (R50), the decoded request (R51), the frame the
segmenter is about to emit (R52). The rows of one stage do not overlap; rows of different stages do. -/
inductive Stage where
  | receive
  | dispatch
  | transmit
  deriving DecidableEq, Repr

inductive Instr where
  /-- RX.SF: declared length L, byte 1 (the SID), the bytes from index 2 on (R45, R65). -/
  | rxSF (l : Nibble) (sid : Byte) (rest : List Byte)
  /-- RX.FF: the 12-bit total length, the bytes from index 2 on (R66). -/
  | rxFF (tlen : BitVec 12) (rest : List Byte)
  /-- RX.CF: the sequence number, the bytes from index 1 on (R67). -/
  | rxCF (n : Nibble) (rest : List Byte)
  /-- RX.OTHER, PCI type 0x3: the low nibble, the bytes from index 1 on (R68). -/
  | rxOther3 (nib : Nibble) (rest : List Byte)
  /-- RX.OTHER, PCI types 0x4..0x7: the low two bits of the type, the low nibble, the bytes from index 1 on (R68). -/
  | rxOther4to7 (ty : BitVec 2) (nib : Nibble) (rest : List Byte)
  /-- RX.OTHER, PCI types 0x8..0xF: the low three bits of the type, the low nibble, the bytes from index 1 on (R68). -/
  | rxOther8toF (ty : BitVec 3) (nib : Nibble) (rest : List Byte)
  /-- DSC, Diagnostic Session Control, SID 0x10, with its parameters (R78). -/
  | dsc (params : List Byte)
  /-- ER, ECU Reset, SID 0x11 (R79). -/
  | er (params : List Byte)
  /-- CDTCI, Clear Diagnostic Information, SID 0x14 (R80). -/
  | cdtci (params : List Byte)
  /-- RDBI, Read Data By Identifier, SID 0x22 (R81). -/
  | rdbi (params : List Byte)
  /-- RMBA, Read Memory By Address, SID 0x23 (R82). -/
  | rmba (params : List Byte)
  /-- SA, Security Access, SID 0x27 (R83). -/
  | sa (params : List Byte)
  /-- SID.UNSUPPORTED: every other SID (R71). -/
  | sidUnsupported (sid : Byte) (params : List Byte)
  /-- TX.SF: the message's first byte (SID_POS) and the rest of the message (R87). -/
  | txSF (sidPos : Byte) (rest : List Byte)
  /-- TX.FF: the total length T and the first six bytes of the message (R88). -/
  | txFF (tlen : BitVec 12) (data : List Byte)
  /-- TX.CF: the sequence number and the next bytes of the message (R89). -/
  | txCF (n : Nibble) (data : List Byte)
  /-- TX.NR: the negative response, the request's SID and the reason code (R48, R76). -/
  | txNR (sid nrc : Byte)
  deriving DecidableEq, Repr

/-- The stage an instruction is read at. -/
def Instr.stage : Instr → Stage
  | .rxSF _ _ _ => .receive
  | .rxFF _ _ => .receive
  | .rxCF _ _ => .receive
  | .rxOther3 _ _ => .receive
  | .rxOther4to7 _ _ _ => .receive
  | .rxOther8toF _ _ _ => .receive
  | .dsc _ => .dispatch
  | .er _ => .dispatch
  | .cdtci _ => .dispatch
  | .rdbi _ => .dispatch
  | .rmba _ => .dispatch
  | .sa _ => .dispatch
  | .sidUnsupported _ _ => .dispatch
  | .txSF _ _ => .transmit
  | .txFF _ _ => .transmit
  | .txCF _ _ => .transmit
  | .txNR _ _ => .transmit

end Sys2Proof
end

