-- ==== Sys2Proof/WellFormed.lean ====
section
/-! DEFINITION. Which instructions are frames the spec's encodings admit (30_encoding.md R43..R48, R51, R52). -/

namespace Sys2Proof

/-- Bytes from index 2 on: at most 6 of an 8-byte frame (R43). -/
def restFits (rest : List Byte) : Bool := rest.length ≤ 6

/-- Bytes from index 1 on, in a frame of 2..8 bytes (R43, R50). -/
def tailFits (rest : List Byte) : Bool := 1 ≤ rest.length && rest.length ≤ 7

/-- The six SIDs that have a row of their own (R51). -/
def servedSids : List Byte := [0x10#8, 0x11#8, 0x14#8, 0x22#8, 0x23#8, 0x27#8]

def Instr.wf : Instr → Bool
  | .rxSF _ _ rest => restFits rest
  | .rxFF _ rest => restFits rest
  | .rxCF _ rest => tailFits rest
  | .rxOther3 _ rest => tailFits rest
  | .rxOther4to7 _ _ rest => tailFits rest
  | .rxOther8toF _ _ rest => tailFits rest
  | .dsc params => restFits params
  | .er params => restFits params
  | .cdtci params => restFits params
  | .rdbi params => restFits params
  | .rmba params => restFits params
  | .sa params => restFits params
  | .sidUnsupported sid params => restFits params && !(servedSids.contains sid)
  -- a three-byte message that begins 0x7F is TX.NR's (R48, R52)
  | .txSF sidPos rest => restFits rest && !(sidPos = 0x7F#8 && rest.length = 2)
  | .txFF tlen data => 8 ≤ tlen.toNat && data.length = 6
  | .txCF n data => n ≠ 0#4 && tailFits data
  | .txNR _ _ => true

end Sys2Proof
end

