-- ==== Sys2Proof/Decode.lean ====
section
/-! DEFINITION. Field assembly (30_encoding.md R44, R49), the decoder (total, rejecting by name), the encoder, and the
reading of a word of spec/opcode_table.json. -/

namespace Sys2Proof

/-! ## Fields of a frame -/

/-- TYPE, byte 0 bits [7:4] (R44). -/
def pciType (b : Byte) : Nibble := b.extractLsb' 4 4

/-- NIB, byte 0 bits [3:0] (R44). -/
def pciNibble (b : Byte) : Nibble := b.extractLsb' 0 4

/-- The PCI byte of a type and a low nibble (R44). -/
def pciByte (type nib : Nibble) : Byte := type ++ nib

/-- The first frame's 12-bit total length: byte 0 bits [3:0] above byte 1 (R46, R49). -/
def ffLength (b0 b1 : Byte) : BitVec 12 := pciNibble b0 ++ b1

/-- T[11:8] (R46). -/
def lengthHigh (t : BitVec 12) : Nibble := t.extractLsb' 8 4

/-- T[7:0] (R46). -/
def lengthLow (t : BitVec 12) : Byte := t.extractLsb' 0 8

/-- The positive response SID, `(SID + 0x40) mod 256` (R74). -/
def positiveSid (sid : Byte) : Byte := sid + 0x40#8

/-- The number of parameters of a single frame of `frameLen` bytes that declares length `l`:
`min(L, RX_LEN - 1) - 1`, and 0 for `L = 0` (R62, R64). -/
def paramCount (l : Nibble) (frameLen : Nat) : Nat := min l.toNat (frameLen - 1) - 1

/-! ## The decoder -/

/-- Why bytes are no instruction of a stage. -/
inductive DecodeError where
  /-- Fewer than two bytes: the 16-bit key of the opcode table is not there (R50, R59). -/
  | tooShort
  /-- More than the eight bytes of a classic frame (R43). -/
  | tooLong
  /-- Read at dispatch, not a single frame (R51). -/
  | notASingleFrame
  /-- Read at transmit, a PCI type 0x3..0xF, which the block never emits (R53). -/
  | noOutboundFormat
  /-- Read at transmit, a single frame whose length is not exactly `1 + L` with `1 <= L <= 7` (R45, R53). -/
  | singleFrameLength
  /-- Read at transmit, a first frame with `T < 8` or not 8 bytes long (R46, R53). -/
  | firstFrameLength
  /-- Read at transmit, a consecutive frame with `N = 0` (R47, R53). -/
  | sequenceZero
  deriving DecidableEq, Repr

/-- The primary map: a received frame of two bytes or more (R50). -/
def decodeReceive (b0 b1 : Byte) (rest : List Byte) : Instr :=
  if pciType b0 = 0x0#4 then .rxSF (pciNibble b0) b1 rest
  else if pciType b0 = 0x1#4 then .rxFF (ffLength b0 b1) rest
  else if pciType b0 = 0x2#4 then .rxCF (pciNibble b0) (b1 :: rest)
  else if pciType b0 = 0x3#4 then .rxOther3 (pciNibble b0) (b1 :: rest)
  else if b0.extractLsb' 6 2 = 0b01#2 then .rxOther4to7 (b0.extractLsb' 4 2) (pciNibble b0) (b1 :: rest)
  else .rxOther8toF (b0.extractLsb' 4 3) (pciNibble b0) (b1 :: rest)

/-- The secondary map: the SID selects the row (R51). -/
def decodeService (sid : Byte) (params : List Byte) : Instr :=
  if sid = 0x10#8 then .dsc params
  else if sid = 0x11#8 then .er params
  else if sid = 0x14#8 then .cdtci params
  else if sid = 0x22#8 then .rdbi params
  else if sid = 0x23#8 then .rmba params
  else if sid = 0x27#8 then .sa params
  else .sidUnsupported sid params

/-- A request single frame at the dispatcher: byte 1 is the SID, the parameters are the bytes from index 2 on that
R64 extracts. Whether the frame is accepted at all is RX.SF's matter (log 14). -/
def decodeDispatch (b0 b1 : Byte) (rest : List Byte) : Except DecodeError Instr :=
  if pciType b0 = 0x0#4 then
    .ok (decodeService b1 (rest.take (paramCount (pciNibble b0) (2 + rest.length))))
  else .error .notASingleFrame

/-- The outbound formats, exact lengths (R45, R46, R47, R48, R52). -/
def decodeTransmit (b0 b1 : Byte) (rest : List Byte) : Except DecodeError Instr :=
  if pciType b0 = 0x0#4 then
    if (pciNibble b0).toNat = 1 + rest.length ∧ (pciNibble b0).toNat ≤ 7 then
      match rest with
      | [sid, nrc] => if b1 = 0x7F#8 then .ok (.txNR sid nrc) else .ok (.txSF b1 [sid, nrc])
      | _ => .ok (.txSF b1 rest)
    else .error .singleFrameLength
  else if pciType b0 = 0x1#4 then
    if 8 ≤ (ffLength b0 b1).toNat ∧ rest.length = 6 then .ok (.txFF (ffLength b0 b1) rest)
    else .error .firstFrameLength
  else if pciType b0 = 0x2#4 then
    if pciNibble b0 = 0#4 then .error .sequenceZero else .ok (.txCF (pciNibble b0) (b1 :: rest))
  else .error .noOutboundFormat

/-- The instruction a frame's bytes are at a stage. -/
def decode (st : Stage) (bytes : List Byte) : Except DecodeError Instr :=
  match bytes with
  | b0 :: b1 :: rest =>
    if 6 < rest.length then .error .tooLong
    else
      match st with
      | .receive => .ok (decodeReceive b0 b1 rest)
      | .dispatch => decodeDispatch b0 b1 rest
      | .transmit => decodeTransmit b0 b1 rest
  | _ => .error .tooShort

/-! ## The encoder -/

/-- A single frame's bytes: `[L, M[0], …]` with `L = |M|` (R45). -/
def singleFrame (m0 : Byte) (rest : List Byte) : List Byte :=
  pciByte 0x0#4 (BitVec.ofNat 4 (1 + rest.length)) :: m0 :: rest

/-- The frame of an instruction (R44..R48; a request is `REQ(sid, params)` of R55, unpadded). -/
def encode : Instr → List Byte
  | .rxSF l sid rest => pciByte 0x0#4 l :: sid :: rest
  | .rxFF tlen rest => pciByte 0x1#4 (lengthHigh tlen) :: lengthLow tlen :: rest
  | .rxCF n rest => pciByte 0x2#4 n :: rest
  | .rxOther3 nib rest => pciByte 0x3#4 nib :: rest
  | .rxOther4to7 ty nib rest => pciByte (0b01#2 ++ ty) nib :: rest
  | .rxOther8toF ty nib rest => pciByte (0b1#1 ++ ty) nib :: rest
  | .dsc params => singleFrame 0x10#8 params
  | .er params => singleFrame 0x11#8 params
  | .cdtci params => singleFrame 0x14#8 params
  | .rdbi params => singleFrame 0x22#8 params
  | .rmba params => singleFrame 0x23#8 params
  | .sa params => singleFrame 0x27#8 params
  | .sidUnsupported sid params => singleFrame sid params
  | .txSF sidPos rest => singleFrame sidPos rest
  | .txFF tlen data => pciByte 0x1#4 (lengthHigh tlen) :: lengthLow tlen :: data
  | .txCF n data => pciByte 0x2#4 n :: data
  | .txNR sid nrc => [0x03#8, 0x7F#8, sid, nrc]

/-! ## Words of spec/opcode_table.json
The table's word is the 16-bit key `(byte0 << 8) | byte1`: byte 0 is bits 15..8 (log 27). Rows of different stages match
the same key (RX.FF and TX.FF match every key 0x1xxx), so a key alone has no one reading; `tableStage` picks one
(DESIGN CHOICE, log 12). A step never uses it: it reads at the stage its PHASE gives. -/

/-- Byte 0 of a table word. -/
def keyByte0 (w : Nat) : Byte := BitVec.ofNat 8 (w / 256)

/-- Byte 1 of a table word. -/
def keyByte1 (w : Nat) : Byte := BitVec.ofNat 8 w

/-- The stage a table word is read at: transmit where a response of the default configuration has this key with legal
fields, else dispatch for a request single frame, else receive. -/
def tableStage (b0 b1 : Byte) : Stage :=
  if pciType b0 = 0x0#4 then
    if servedSids.contains b1 then .dispatch
    else if 1 ≤ (pciNibble b0).toNat ∧ (pciNibble b0).toNat ≤ 7 then
      if (b0 = 0x03#8 ∧ b1 = 0x7F#8) ∨ (servedSids.map positiveSid).contains b1 then .transmit else .dispatch
    else .receive
  else if pciType b0 = 0x1#4 then
    if 8 ≤ (ffLength b0 b1).toNat then .transmit else .receive
  else if pciType b0 = 0x2#4 then
    if pciNibble b0 = 0#4 then .receive else .transmit
  else .receive

/-- The frame of a table word, every byte after the key 0: as long as its format says where it is outbound, else 8. -/
def tableFrame (b0 b1 : Byte) : List Byte :=
  if tableStage b0 b1 = .transmit ∧ pciType b0 = 0x0#4 then
    b0 :: b1 :: List.replicate ((pciNibble b0).toNat - 1) 0
  else b0 :: b1 :: List.replicate 6 0

/-- The instruction the decoder reads from a table word (none where it refuses). -/
def decodeTableWord (nbits w : Nat) : Option Instr :=
  if nbits ≤ 16 ∧ w < 2 ^ nbits then
    match decode (tableStage (keyByte0 w) (keyByte1 w)) (tableFrame (keyByte0 w) (keyByte1 w)) with
    | .ok i => some i
    | .error _ => none
  else none

end Sys2Proof
end

