-- ==== Sys2Proof/Machine/State.lean ====
section
/-! DEFINITION. The state of the block (spec 10_state.md), of its four ports (20_memory.md R37), and, beside it, of the
environment behind the handler port (R25); the reasons a step can stop; reset (R26, R124, R126). Plain data. -/

namespace Sys2Proof.Machine

/-- A CAN frame: identifier and data bytes in wire order; the data's length is the DLC (R10). -/
structure Frame where
  id : CanId
  data : List Byte
  deriving DecidableEq, Repr

/-- The transport's answer to one emitted frame (R37). -/
inductive TxStatus where
  | ok
  | fail
  deriving DecidableEq, Repr

/-- A frame presented on the TX port and the answer it got. -/
structure Sent where
  frame : Frame
  status : TxStatus
  deriving DecidableEq, Repr

/-- A request presented on the handler port (R37, R73). -/
structure Request where
  sid : Byte
  params : List Byte
  deriving DecidableEq, Repr

/-- A handler's reply; `positive` holds the bytes after the positive SID (R37, R100). -/
inductive Reply where
  | positive (data : List Byte)
  | negative (nrc : Byte)
  deriving DecidableEq, Repr

/-- The state behind the handler port (R25). The block never reads it (R118); it is carried so that "no state outside
the block changes" (R110) can be said. `run` counts process starts and selects the free values of Config (log 10). -/
structure HandlerState where
  run : Nat
  session : Byte
  grantedLevel : Byte
  lastSeed1 : Byte
  prevSeed1 : Byte
  lastSeed2 : BitVec 16
  prevSeed2 : BitVec 16
  legacyFlag : Bool
  /-- Session 0x01 has issued a seed since process start: what R107's "first seed" turns on (log 31). -/
  issued01 : Bool
  deriving DecidableEq, Repr

/-- One answer of the environment on the handler port: the reply, and the environment's state once the handler has
completed everything it does (R73, R100). -/
structure HandlerAnswer where
  reply : Reply
  after : HandlerState
  deriving DecidableEq, Repr

/-- The transaction phases of R13. -/
inductive Phase where
  | idle
  | filter
  | decode
  | dispatch
  | handler
  | encode
  | sendSF
  | sendFF
  | sendCF
  deriving DecidableEq, Repr

/-- The outcomes of R109. -/
inductive TxnOutcome where
  | none
  | dropWrongId
  | dropTooShort
  | dropNotSingleFrame
  | dropLengthExceeds
  | dropZeroLength
  | respServiceNotSupported
  | respIncorrectLength
  | respPositive
  | respNegative
  | faultPayloadTooLarge
  | txAborted
  deriving DecidableEq, Repr

/-- RSP_BUF: (address, byte) pairs, addresses strictly rising; an address that is not listed holds no value (log 5). -/
abbrev Memory := List Host.Cell

structure State where
  /-- PHASE (R13). -/
  phase : BitVec 4
  /-- CFG_REQ_ID (R14). -/
  cfgReqId : CanId
  /-- CFG_RESP_ID (R15). -/
  cfgRespId : CanId
  /-- CFG_FLAG_ID (R16). -/
  cfgFlagId : CanId
  /-- MIN_PARAM_LEN, sparse; an unlisted SID has the entry 0b0000 (R17). -/
  minParamLen : List (Byte × BitVec 4)
  /-- CFG_POLICY (R18). -/
  cfgPolicy : BitVec 2
  /-- RX_ID (R19). -/
  rxId : CanId
  /-- RX_LEN (R19). -/
  rxLen : BitVec 4
  /-- RX_DATA[0..7] (R19). -/
  rxData : Vector Byte 8
  /-- REQ_SID (R20). -/
  reqSid : Byte
  /-- REQ_NPARAM (R20). -/
  reqNParam : BitVec 3
  /-- REQ_PARAM[0..5] (R20). -/
  reqParam : Vector Byte 6
  /-- RSP_LEN (R21). -/
  rspLen : BitVec 12
  /-- RSP_BUF[0..4094] (R21). -/
  rspBuf : Memory
  /-- TX_OFF (R22). -/
  txOff : BitVec 12
  /-- TX_SEQ (R22). -/
  txSeq : BitVec 4
  /-- STATUS.LAST_OUTCOME (R23). -/
  lastOutcome : BitVec 4
  /-- STATUS.FAULT (R23). -/
  faultBit : Bool
  /-- OUT, the outcome the transaction will record (R70, R111). -/
  out : TxnOutcome
  /-- The RX port: the frames the transport offers, the head first (log 7). -/
  rxPort : List Frame
  /-- The handler port's answers to come, in call order (log 7). -/
  hpPort : List HandlerAnswer
  /-- The TX port's answers to come, in emission order (log 7). -/
  txPort : List TxStatus
  /-- The reset input (R124). -/
  resetLine : Bool
  /-- Every frame presented on the TX port and answered, oldest first (log 8). -/
  txLog : List Sent
  /-- Every request presented on the handler port, oldest first (log 8). -/
  hpLog : List Request
  /-- The environment's state behind the handler port (R25). -/
  handlers : HandlerState
  deriving DecidableEq, Repr

/-- Why the machine stops. -/
inductive Fault where
  /-- Raised by MemRead (Machine/Ops.lean) on a byte of RSP_BUF that holds no value: at or past RSP_LEN, or never
  written (93_implementation_defined.md). No rule performs such a read. Safe. -/
  | readNoValue
  deriving DecidableEq, Repr

/-- Why a state or an instruction has no meaning. -/
inductive Refusal where
  /-- Raised by an arm of exec that has no meaning yet. Safe. -/
  | notModelled (mnemonic : String)
  /-- Raised by step: CFG_RESP_ID = CFG_REQ_ID (R15), or a present MIN_PARAM_LEN entry with MIN = 7 (R17). Safe. -/
  | illegalConfiguration
  /-- Raised by step: PHASE holds 0x9..0xF (R13, 93). Safe. -/
  | reservedPhase
  /-- Raised by MemRead and MemWrite: an access past RSP_BUF[4094] (R27, 93). Safe. -/
  | rspBufOutOfRange
  /-- Raised by RX acceptance: the transport offers a frame of more than 8 bytes, which is no classic frame (R56, D11).
  Safe. -/
  | notAClassicFrame
  /-- Raised by the fetch at DECODE: RX_LEN is over 8 (R19). Safe. -/
  | illegalRxLen
  /-- Raised by the fetch at DISPATCH: REQ_NPARAM is 7 (R20). Safe. -/
  | illegalParamCount
  /-- Raised by the ENCODE phase: RSP_LEN is 0 (R21). Safe. -/
  | emptyResponse
  /-- Raised by step: the bytes fetched are no instruction of the phase's stage (R53). Safe. -/
  | undecodable (e : DecodeError)
  deriving DecidableEq, Repr

/-- The three outcomes of a step of this machine. -/
abbrev Result := Host.Outcome State Fault Refusal

/-- The environment's state at the process start of number `run` (R126). -/
def HandlerState.atStart (run : Nat) : HandlerState :=
  { run := run, session := 0x01, grantedLevel := 0x00
    lastSeed1 := 0, prevSeed1 := Config.initialPrevSeed1 run
    lastSeed2 := 0, prevSeed2 := Config.initialPrevSeed2 run
    legacyFlag := Config.initialLegacyFlag run, issued01 := false }

/-- The machine right after reset, for a configuration and the number of the process start (R26, R124). The datapath
registers have no value in the spec: 0 is a DESIGN CHOICE (log 2). -/
def State.resetWith (c : Configuration) (run : Nat) : State :=
  { phase := 0x0
    cfgReqId := c.reqId, cfgRespId := c.respId, cfgFlagId := c.flagId
    minParamLen := c.minParamLen, cfgPolicy := c.policy
    rxId := 0, rxLen := 0, rxData := #v[0, 0, 0, 0, 0, 0, 0, 0]
    reqSid := 0, reqNParam := 0, reqParam := #v[0, 0, 0, 0, 0, 0]
    rspLen := 0, rspBuf := [], txOff := 0, txSeq := 0
    lastOutcome := 0x0, faultBit := false, out := .none
    rxPort := [], hpPort := [], txPort := [], resetLine := false
    txLog := [], hpLog := [], handlers := HandlerState.atStart run }

/-- The machine right after reset (R26), for the default configuration (log 3). -/
def State.reset : State := State.resetWith Config.default 0

/-- The configuration the CFG_* registers hold. -/
def State.configuration (s : State) : Configuration :=
  { reqId := s.cfgReqId, respId := s.cfgRespId, flagId := s.cfgFlagId
    minParamLen := s.minParamLen, policy := s.cfgPolicy }

end Sys2Proof.Machine
end

