-- ==== Sys2Proof/Machine/Flags.lean ====
section
/-! DEFINITION. PHASE and STATUS (10_state.md R13, R23, R24; 60_exceptions.md R109): the codes, the fields, the views.
The block has no arithmetic flags (R24): FAULT and BUSY are its only flag bits, LAST_OUTCOME its only result code. -/

namespace Sys2Proof.Machine

/-- The phase encodings of R13. -/
def Phase.code : Phase → BitVec 4
  | .idle => 0x0#4
  | .filter => 0x1#4
  | .decode => 0x2#4
  | .dispatch => 0x3#4
  | .handler => 0x4#4
  | .encode => 0x5#4
  | .sendSF => 0x6#4
  | .sendFF => 0x7#4
  | .sendCF => 0x8#4

/-- The phase a PHASE register value names; 0x9..0xF are reserved (R13). -/
def Phase.ofCode (c : BitVec 4) : Option Phase :=
  if c = 0x0#4 then some .idle
  else if c = 0x1#4 then some .filter
  else if c = 0x2#4 then some .decode
  else if c = 0x3#4 then some .dispatch
  else if c = 0x4#4 then some .handler
  else if c = 0x5#4 then some .encode
  else if c = 0x6#4 then some .sendSF
  else if c = 0x7#4 then some .sendFF
  else if c = 0x8#4 then some .sendCF
  else none

/-- The outcome codes of R109. -/
def TxnOutcome.code : TxnOutcome → BitVec 4
  | .none => 0x0#4
  | .dropWrongId => 0x1#4
  | .dropTooShort => 0x2#4
  | .dropNotSingleFrame => 0x3#4
  | .dropLengthExceeds => 0x4#4
  | .dropZeroLength => 0x5#4
  | .respServiceNotSupported => 0x6#4
  | .respIncorrectLength => 0x7#4
  | .respPositive => 0x8#4
  | .respNegative => 0x9#4
  | .faultPayloadTooLarge => 0xA#4
  | .txAborted => 0xB#4

/-- STATUS.BUSY: always equal to `PHASE != IDLE` (R23). -/
def State.busy (s : State) : Bool := s.phase != 0x0#4

/-- `rx_ready = NOT STATUS.BUSY` (R24, R37, R128). -/
def State.rxReady (s : State) : Bool := !s.busy

/-- The STATUS register: [7:6] 0, [5] BUSY, [4] FAULT, [3:0] LAST_OUTCOME (R23). -/
def State.status (s : State) : BitVec 8 :=
  0b00#2 ++ BitVec.ofBool s.busy ++ BitVec.ofBool s.faultBit ++ s.lastOutcome

/-- Sets the sticky fault bit (R23, R113). -/
def State.setFault (s : State) : State := { s with faultBit := true }

end Sys2Proof.Machine
end

