-- ==== Sys2Proof/Machine/Operands.lean ====
section
/-! DEFINITION. Reading the registers an operation takes its operands from: the configuration registers with their
fields (10_state.md R17, R18), the received frame (R19), the decoded request (R20). -/

namespace Sys2Proof.Machine

/-! ## CFG_POLICY (R18) -/

/-- SF_ZERO_LENGTH_POLICY: set for `dispatch_byte1`, clear for `drop`. -/
def zeroLengthDispatches (policy : BitVec 2) : Bool := policy.getLsbD 0

/-- AVAILABLE_BASIS: set for `whole_frame`, clear for `after_pci`. -/
def wholeFrameBasis (policy : BitVec 2) : Bool := policy.getLsbD 1

/-- "Available bytes" of a frame of `frameLen` bytes (R18, R61). -/
def availableBytes (policy : BitVec 2) (frameLen : Nat) : Nat :=
  if wholeFrameBasis policy then frameLen else frameLen - 1

/-! ## MIN_PARAM_LEN (R17) -/

/-- The 4-bit entry of a SID; a SID the sparse table does not list has 0b0000. -/
def minEntry (table : List (Byte × BitVec 4)) (sid : Byte) : BitVec 4 :=
  match table with
  | [] => 0b0000#4
  | (key, entry) :: more => if key = sid then entry else minEntry more sid

/-- PRESENT, bit [3] of an entry. -/
def entryPresent (entry : BitVec 4) : Bool := entry.getLsbD 3

/-- MIN, bits [2:0] of an entry. -/
def entryMin (entry : BitVec 4) : Nat := (entry.extractLsb' 0 3).toNat

/-- No present entry holds the reserved minimum 7 (R17). -/
def minTableLegal (table : List (Byte × BitVec 4)) : Bool :=
  table.all fun row => !(entryPresent row.2 && entryMin row.2 == 7)

/-- A configuration the model gives a meaning (R15, R17). -/
def State.configurationLegal (s : State) : Bool :=
  s.cfgRespId != s.cfgReqId && minTableLegal s.minParamLen

/-! ## Register files -/

/-- The received data bytes `RX_DATA[0 .. RX_LEN-1]` (R19). -/
def State.rxBytes (s : State) : List Byte := s.rxData.toList.take s.rxLen.toNat

/-- The parameters `REQ_PARAM[0 .. REQ_NPARAM-1]` (R20, R73). -/
def State.reqParams (s : State) : List Byte := s.reqParam.toList.take s.reqNParam.toNat

/-- `RX_DATA[i] <- data[i]` for `i < |data|`; the entries past the data keep their bytes, which no rule reads (R19, R56,
log 6). -/
def loadRxData (data : List Byte) (old : Vector Byte 8) : Vector Byte 8 :=
  #v[data.getD 0 old[0], data.getD 1 old[1], data.getD 2 old[2], data.getD 3 old[3],
     data.getD 4 old[4], data.getD 5 old[5], data.getD 6 old[6], data.getD 7 old[7]]

/-- `REQ_PARAM[i] <- params[i]` for `i < |params|` (R20, R64, log 6). -/
def loadReqParam (params : List Byte) (old : Vector Byte 6) : Vector Byte 6 :=
  #v[params.getD 0 old[0], params.getD 1 old[1], params.getD 2 old[2],
     params.getD 3 old[3], params.getD 4 old[4], params.getD 5 old[5]]

end Sys2Proof.Machine
end

