-- ==== Sys2Proof/Machine/Ops.lean ====
section
/-! DEFINITION. The named operations every rule is written from: register writes (00_scope.md R9), MemRead and MemWrite
on RSP_BUF (20_memory.md R27), how a transaction ends (60_exceptions.md R110, R111, R113, R115; 42_tx_segmenter.md R94),
the error builder (R76) and Emit (R93). The block has no trap entry and no return (R115): `raise Drop`, `raise Nrc` and
`raise Fault` are its exceptions, one shared operation each. -/

namespace Sys2Proof.Machine

/-- Runs `f` on the next state, and passes a stop on. -/
def Result.andThen (r : Result) (f : State → Result) : Result :=
  match r with
  | .next s => f s
  | .fault e => .fault e
  | .refused e => .refused e

/-! ## Register writes -/

/-- `PHASE <- P` (R9, R13). -/
def State.setPhase (p : Phase) (s : State) : State := { s with phase := p.code }

/-- `OUT <- o` (R70). -/
def State.setOut (o : TxnOutcome) (s : State) : State := { s with out := o }

/-- Writes RX_ID, RX_LEN and RX_DATA from an accepted frame (R56). -/
def State.latchFrame (f : Frame) (s : State) : State :=
  { s with rxId := f.id, rxLen := BitVec.ofNat 4 f.data.length, rxData := loadRxData f.data s.rxData }

/-- Writes REQ_SID, REQ_NPARAM and REQ_PARAM (R64). -/
def State.latchRequest (sid : Byte) (params : List Byte) (s : State) : State :=
  { s with reqSid := sid, reqNParam := BitVec.ofNat 3 params.length, reqParam := loadReqParam params s.reqParam }

/-- `RSP_LEN <- n` (R21). -/
def State.setRspLen (n : Nat) (s : State) : State := { s with rspLen := BitVec.ofNat 12 n }

/-- `TX_OFF <- off; TX_SEQ <- seq` (R22). -/
def State.setTx (off : BitVec 12) (seq : BitVec 4) (s : State) : State := { s with txOff := off, txSeq := seq }

/-! ## RSP_BUF -/

/-- The byte at an address, none where the address holds no value. -/
def Memory.read : Memory → Nat → Option Byte
  | [], _ => none
  | (k, b) :: more, a => if k = a then some b else Memory.read more a

/-- Stores a byte, keeping the addresses strictly rising. -/
def Memory.write : Memory → Nat → Byte → Memory
  | [], a, v => [(a, v)]
  | (k, b) :: more, a, v =>
    if a < k then (a, v) :: (k, b) :: more
    else if a = k then (a, v) :: more
    else (k, b) :: Memory.write more a v

/-- Stores consecutive bytes from an address on. -/
def Memory.writeBytes : Memory → Nat → List Byte → Memory
  | m, _, [] => m
  | m, a, v :: more => Memory.writeBytes (m.write a v) (a + 1) more

/-- Reads `n` consecutive bytes, none if one of them holds no value. -/
def Memory.readBytes (m : Memory) : Nat → Nat → Option (List Byte)
  | _, 0 => some []
  | a, n + 1 =>
    match m.read a, Memory.readBytes m (a + 1) n with
    | some b, some more => some (b :: more)
    | _, _ => none

/-- Every listed address is at least `lo`, and the addresses strictly rise. -/
def Memory.risesFrom : Memory → Nat → Bool
  | [], _ => true
  | (k, _) :: more, lo => decide (lo ≤ k) && Memory.risesFrom more (k + 1)

/-- The canonical form: addresses strictly rise, none past RSP_BUF[4094] (R27). -/
def Memory.wf (m : Memory) : Bool := m.risesFrom 0 && m.all fun c => decide (c.1 < Config.maxMessage)

/-- `MemRead(a, n)` (R27). A byte at or past RSP_LEN, or never written, holds no value (R21, 93). -/
def memRead (a n : Nat) (s : State) : Except Result (List Byte) :=
  if Config.maxMessage < a + n then .error (.refused .rspBufOutOfRange)
  else if s.rspLen.toNat < a + n then .error (.fault .readNoValue)
  else
    match s.rspBuf.readBytes a n with
    | some bytes => .ok bytes
    | none => .error (.fault .readNoValue)

/-- `MemWrite(a, n, v)` with `n = |v|` (R27). -/
def memWrite (a : Nat) (v : List Byte) (s : State) : Result :=
  if Config.maxMessage < a + v.length then .refused .rspBufOutOfRange
  else .next { s with rspBuf := s.rspBuf.writeBytes a v }

/-! ## How a transaction ends -/

/-- The transaction end: LAST_OUTCOME records OUT, PHASE returns to IDLE, nothing else changes (R111). -/
def endTransaction (s : State) : State :=
  { s with lastOutcome := s.out.code, phase := Phase.idle.code }

/-- `raise Drop(reason)`: no frame, no handler call (R110). -/
def raiseDrop (reason : TxnOutcome) (s : State) : Result := .next (endTransaction (s.setOut reason))

/-- `raise Fault(PAYLOAD_TOO_LARGE)`: no frame, the sticky bit is set (R84, R113). -/
def raisePayloadTooLarge (s : State) : Result :=
  .next (endTransaction ((s.setOut .faultPayloadTooLarge).setFault))

/-- A failed Emit ends the transaction; FAULT is not set (R94). -/
def abortSend (s : State) : State := endTransaction (s.setOut .txAborted)

/-! ## The response -/

/-- `BuildNR(sid, code)`, the error builder (R48, R76). Its message's length 3 always passes CheckLimit (R84). -/
def buildNR (sid code : Byte) (s : State) : Result := memWrite 0 [0x7F#8, sid, code] (s.setRspLen 3)

/-- `raise Nrc(sid, code)`: the response becomes the negative response, the outcome is recorded, and the message goes to
the segmenter (R9, R70, R71, R72, R75). -/
def raiseNrc (sid code : Byte) (outcome : TxnOutcome) (s : State) : Result :=
  (buildNR sid code s).andThen fun t => .next ((t.setOut outcome).setPhase .encode)

/-! ## Emit -/

/-- Takes the transport's answer to a frame on CFG_RESP_ID and logs both (R33, R92). -/
def State.sent (bytes : List Byte) (answer : TxStatus) (later : List TxStatus) (s : State) : State :=
  { s with txPort := later, txLog := s.txLog ++ [{ frame := { id := s.cfgRespId, data := bytes }, status := answer }] }

/-- `Emit({CFG_RESP_ID, bytes})`: waits for the answer; `ok` goes on with `onOk`, `fail` aborts (R92, R93, R94). While
the transport has not answered, the block stays where it is with the frame presented (log 7). -/
def emit (bytes : List Byte) (onOk : State → State) (s : State) : Result :=
  match s.txPort with
  | [] => .next s
  | .ok :: later => .next (onOk (s.sent bytes .ok later))
  | .fail :: later => .next (abortSend (s.sent bytes .fail later))

/-! ## Reset -/

/-- Reset is process start: every block register takes its reset value, the configuration stays as configured, the
environment starts anew, and what was already emitted stays emitted (R124, R126, log 11). -/
def applyReset (s : State) : State :=
  { State.resetWith s.configuration (s.handlers.run + 1) with
    rxPort := s.rxPort, hpPort := s.hpPort, txPort := s.txPort, txLog := s.txLog, hpLog := s.hpLog }

end Sys2Proof.Machine
end

