-- ==== Sys2Proof/Machine/Receive.lean ====
section
/-! DEFINITION. The received-frame operations of 40_rx_parser.md: RX.SF, RX.FF, RX.CF and the three rows of RX.OTHER. -/

namespace Sys2Proof.Machine

/-- `DecodeRequest()` on a single frame of `2 + |rest|` bytes that declares length L: R58's checks from R61 on, in R63's
order, then the extraction of R64. -/
def decodeRequest (l : Nibble) (sid : Byte) (rest : List Byte) (s : State) : Result :=
  if availableBytes s.cfgPolicy (2 + rest.length) < l.toNat then raiseDrop .dropLengthExceeds s
  else if l = 0#4 then
    if zeroLengthDispatches s.cfgPolicy then .next ((s.latchRequest sid []).setPhase .dispatch)
    else raiseDrop .dropZeroLength s
  else .next ((s.latchRequest sid (rest.take (paramCount l (2 + rest.length)))).setPhase .dispatch)

/-- RX.SF (R65). -/
def execRxSF (l : Nibble) (sid : Byte) (rest : List Byte) (s : State) : Result := decodeRequest l sid rest s

/-- RX.FF: dropped, no reassembly is opened (R66). -/
def execRxFF (s : State) : Result := raiseDrop .dropNotSingleFrame s

/-- RX.CF: dropped, the sequence number is not examined (R67). -/
def execRxCF (s : State) : Result := raiseDrop .dropNotSingleFrame s

/-- RX.OTHER, type 0x3: dropped (R68). -/
def execRxOther3 (s : State) : Result := raiseDrop .dropNotSingleFrame s

/-- RX.OTHER, types 0x4..0x7: dropped (R68). -/
def execRxOther4to7 (s : State) : Result := raiseDrop .dropNotSingleFrame s

/-- RX.OTHER, types 0x8..0xF: dropped (R68). -/
def execRxOther8toF (s : State) : Result := raiseDrop .dropNotSingleFrame s

end Sys2Proof.Machine
end

