-- ==== Sys2Proof/Machine/Services.lean ====
section
/-! DEFINITION. The dispatcher of 41_dispatcher.md: the seven dispatch rows, all `Dispatch()` of R70 with their own SID,
and what the handler's reply becomes (R74, R75, R84). -/

namespace Sys2Proof.Machine

/-- Presents a request on the handler port and waits for the reply in HANDLER (R73). -/
def callHandler (sid : Byte) (params : List Byte) (s : State) : State :=
  State.setPhase .handler { s with hpLog := s.hpLog ++ [{ sid := sid, params := params }] }

/-- `Dispatch()` up to the handler call: table lookup, then the length check, then the handler (R70, R71, R72, R73). -/
def dispatch (sid : Byte) (params : List Byte) (s : State) : Result :=
  if !entryPresent (minEntry s.minParamLen sid) then raiseNrc sid 0x11#8 .respServiceNotSupported s
  else if params.length < entryMin (minEntry s.minParamLen sid) then raiseNrc sid 0x13#8 .respIncorrectLength s
  else .next (callHandler sid params s)

/-- DSC (R78). -/
def execDsc (params : List Byte) (s : State) : Result := dispatch 0x10#8 params s

/-- ER: an ordinary handler transaction, no reset of the block (R79, R125). -/
def execEr (params : List Byte) (s : State) : Result := dispatch 0x11#8 params s

/-- CDTCI (R80). -/
def execCdtci (params : List Byte) (s : State) : Result := dispatch 0x14#8 params s

/-- RDBI (R81). -/
def execRdbi (params : List Byte) (s : State) : Result := dispatch 0x22#8 params s

/-- RMBA (R82). -/
def execRmba (params : List Byte) (s : State) : Result := dispatch 0x23#8 params s

/-- SA (R83). -/
def execSa (params : List Byte) (s : State) : Result := dispatch 0x27#8 params s

/-- SID.UNSUPPORTED (R71): a SID without a row of its own. A table reconfigured to hold it dispatches it (R70, R74,
log 16). -/
def execSidUnsupported (sid : Byte) (params : List Byte) (s : State) : Result := dispatch sid params s

/-- The rest of `Dispatch()`: the reply becomes the message in RSP_BUF, or the fault (R70, R74, R75, R84). -/
def acceptReply (reply : Reply) (s : State) : Result :=
  match reply with
  | .positive data =>
    if Config.maxMessage < 1 + data.length then raisePayloadTooLarge s
    else
      (memWrite 0 [positiveSid s.reqSid] (s.setRspLen (1 + data.length))).andThen fun t =>
        (memWrite 1 data t).andThen fun u => .next ((u.setOut .respPositive).setPhase .encode)
  | .negative code => raiseNrc s.reqSid code .respNegative s

end Sys2Proof.Machine
end

