-- ==== Sys2Proof/Machine/Transmit.lean ====
section
/-! DEFINITION. The transmit rows of 42_tx_segmenter.md: TX.SF, TX.FF, TX.CF, and TX.NR (41_dispatcher.md R76). -/

namespace Sys2Proof.Machine

/-- The sequence number after `n`: 15 is followed by 1, never 0 (R89, R90). -/
def nextSeq (n : Nibble) : Nibble := if n = 15#4 then 1#4 else n + 1#4

/-- TX.SF (R87): one frame, and the transaction ends. -/
def execTxSF (sidPos : Byte) (rest : List Byte) (s : State) : Result :=
  emit (encode (.txSF sidPos rest)) endTransaction (s.setPhase .sendSF)

/-- TX.FF (R88): the first frame; TX_OFF and TX_SEQ are set for the consecutive frames that follow. -/
def execTxFF (tlen : BitVec 12) (data : List Byte) (s : State) : Result :=
  emit (encode (.txFF tlen data)) (fun t => (t.setTx 6#12 1#4).setPhase .sendCF) (s.setPhase .sendFF)

/-- What follows an emitted consecutive frame of `n` message bytes: TX_OFF and TX_SEQ advance, and the transaction ends
once `TX_OFF` has reached T (R89, R93). -/
def afterCF (n : Nat) (seq : Nibble) (s : State) : State :=
  let t := s.setTx (s.txOff + BitVec.ofNat 12 n) (nextSeq seq)
  if t.txOff.toNat < t.rspLen.toNat then t else endTransaction t

/-- TX.CF (R89). -/
def execTxCF (n : Nibble) (data : List Byte) (s : State) : Result :=
  emit (encode (.txCF n data)) (afterCF data.length n) (s.setPhase .sendCF)

/-- TX.NR: the error builder's message (R76), emitted as its single frame (R48, R87). Where the builder has already run,
building the same message again changes nothing (log 15). -/
def execTxNR (sid nrc : Byte) (s : State) : Result :=
  (buildNR sid nrc s).andThen fun t => emit (encode (.txNR sid nrc)) endTransaction (t.setPhase .sendSF)

end Sys2Proof.Machine
end

