-- ==== Sys2Proof/Machine/Dispatch.lean ====
section
/-! DEFINITION. exec: one arm per constructor of Instr. -/

namespace Sys2Proof.Machine

def exec (i : Instr) (s : State) : Host.Outcome State Fault Refusal :=
  match i with
  -- receive: 40_rx_parser.md
  | .rxSF l sid rest => Sys2Proof.Machine.execRxSF l sid rest s
  | .rxFF _ _ => Sys2Proof.Machine.execRxFF s
  | .rxCF _ _ => Sys2Proof.Machine.execRxCF s
  | .rxOther3 _ _ => Sys2Proof.Machine.execRxOther3 s
  | .rxOther4to7 _ _ _ => Sys2Proof.Machine.execRxOther4to7 s
  | .rxOther8toF _ _ _ => Sys2Proof.Machine.execRxOther8toF s
  -- dispatch: 41_dispatcher.md
  | .dsc params => Sys2Proof.Machine.execDsc params s
  | .er params => Sys2Proof.Machine.execEr params s
  | .cdtci params => Sys2Proof.Machine.execCdtci params s
  | .rdbi params => Sys2Proof.Machine.execRdbi params s
  | .rmba params => Sys2Proof.Machine.execRmba params s
  | .sa params => Sys2Proof.Machine.execSa params s
  | .sidUnsupported sid params => Sys2Proof.Machine.execSidUnsupported sid params s
  -- transmit: 42_tx_segmenter.md
  | .txSF sidPos rest => Sys2Proof.Machine.execTxSF sidPos rest s
  | .txFF tlen data => Sys2Proof.Machine.execTxFF tlen data s
  | .txCF n data => Sys2Proof.Machine.execTxCF n data s
  | .txNR sid nrc => Sys2Proof.Machine.execTxNR sid nrc s

end Sys2Proof.Machine
end

