-- ==== Sys2Proof/Machine/Fetch.lean ====
section
/-! DEFINITION. Fetching the bytes of the instruction the current phase executes (log 14), and placing a table word
where a step fetches it (log 13). DECODE reads RX_DATA (R58), DISPATCH reads REQ_* (R70), SEND_* reads RSP_BUF (R87, R88,
R89). -/

namespace Sys2Proof.Machine

/-- The received frame's bytes (R19, R58). -/
def fetchReceived (s : State) : Except Result (List Byte) :=
  if 8 < s.rxLen.toNat then .error (.refused .illegalRxLen) else .ok s.rxBytes

/-- The decoded request as the frame `REQ(REQ_SID, REQ_PARAM[0 .. REQ_NPARAM-1])` (R20, R55). -/
def fetchRequest (s : State) : Except Result (List Byte) :=
  if 6 < s.reqNParam.toNat then .error (.refused .illegalParamCount)
  else .ok (singleFrame s.reqSid s.reqParams)

/-- The single frame of the message in RSP_BUF, `[T] ++ MemRead(0, T)` (R87). -/
def fetchSingle (s : State) : Except Result (List Byte) :=
  match memRead 0 s.rspLen.toNat s with
  | .ok bytes => .ok (BitVec.setWidth 8 s.rspLen :: bytes)
  | .error stop => .error stop

/-- The first frame of the message in RSP_BUF (R88). -/
def fetchFirst (s : State) : Except Result (List Byte) :=
  match memRead 0 Config.ffCapacity s with
  | .ok bytes => .ok (pciByte 0x1#4 (lengthHigh s.rspLen) :: lengthLow s.rspLen :: bytes)
  | .error stop => .error stop

/-- The next consecutive frame of the message in RSP_BUF, `n = min(7, T - TX_OFF)` bytes (R89). -/
def fetchConsecutive (s : State) : Except Result (List Byte) :=
  match memRead s.txOff.toNat (min Config.cfCapacity (s.rspLen.toNat - s.txOff.toNat)) s with
  | .ok bytes => .ok (pciByte 0x2#4 s.txSeq :: bytes)
  | .error stop => .error stop

/-! ## Placing a table word -/

/-- RX_ID, RX_LEN and RX_DATA hold the frame, on the request identifier, at DECODE. -/
def placeReceived (bytes : List Byte) (s : State) : State :=
  (s.latchFrame { id := s.cfgReqId, data := bytes }).setPhase .decode

/-- REQ_* holds the request of a single frame, at DISPATCH. -/
def placeRequest (bytes : List Byte) (s : State) : State :=
  (s.latchRequest (bytes.getD 1 0#8)
    ((bytes.drop 2).take (paramCount (pciNibble (bytes.getD 0 0#8)) bytes.length))).setPhase .dispatch

/-- RSP_* and TX_* hold a message whose next frame is the given one, in its SEND_* phase. -/
def placeOutbound (bytes : List Byte) (s : State) : State :=
  if pciType (bytes.getD 0 0#8) = 0x0#4 then
    State.setPhase .sendSF
      { s with rspLen := BitVec.ofNat 12 (bytes.length - 1), rspBuf := s.rspBuf.writeBytes 0 (bytes.drop 1) }
  else if pciType (bytes.getD 0 0#8) = 0x1#4 then
    State.setPhase .sendFF
      { s with rspLen := ffLength (bytes.getD 0 0#8) (bytes.getD 1 0#8), rspBuf := s.rspBuf.writeBytes 0 (bytes.drop 2) }
  else
    State.setPhase .sendCF
      { s with rspLen := BitVec.ofNat 12 (5 + bytes.length), rspBuf := s.rspBuf.writeBytes 6 (bytes.drop 1)
               txOff := 6, txSeq := pciNibble (bytes.getD 0 0#8) }

/-- The frame where the next step fetches it, at the stage it is read at. -/
def placeFrame (st : Stage) (bytes : List Byte) (s : State) : State :=
  match st with
  | .receive => placeReceived bytes s
  | .dispatch => placeRequest bytes s
  | .transmit => placeOutbound bytes s

end Sys2Proof.Machine
end

