-- ==== Sys2Proof/Machine/Phases.lean ====
section
/-! DEFINITION. The phases that execute no table row: IDLE (acceptance, 40_rx_parser.md R56), FILTER (R57), the length
check at the head of DECODE (R59), HANDLER (41_dispatcher.md R73) and ENCODE (42_tx_segmenter.md R85). -/

namespace Sys2Proof.Machine

/-- RX acceptance: takes the frame offered, if one is; waits otherwise (R56, R123). -/
def acceptFrame (s : State) : Result :=
  match s.rxPort with
  | [] => .next s
  | f :: later =>
    if Config.maxFrame < f.data.length then .refused .notAClassicFrame
    else .next (State.setPhase .filter (State.latchFrame f { s with rxPort := later }))

/-- The arbitration-ID filter: all 11 bits (R57). -/
def filterFrame (s : State) : Result :=
  if s.rxId = s.cfgReqId then .next (s.setPhase .decode) else raiseDrop .dropWrongId s

/-- The too-short check, before the PCI is read (R59). -/
def tooShort (s : State) : Bool := s.rxLen.toNat < 2

/-- HANDLER: takes the handler's answer, if it is there; waits otherwise (R73, R100, log 7). -/
def takeAnswer (s : State) : Result :=
  match s.hpPort with
  | [] => .next s
  | answer :: later => acceptReply answer.reply { s with hpPort := later, handlers := answer.after }

/-- ENCODE: a single frame if and only if `T <= 7` (R85). -/
def chooseSegmentation (s : State) : Result :=
  if s.rspLen = 0#12 then .refused .emptyResponse
  else if s.rspLen.toNat ≤ Config.sfCapacity then .next (s.setPhase .sendSF)
  else .next (s.setPhase .sendFF)

end Sys2Proof.Machine
end

