-- ==== Sys2Proof/Machine/Step.lean ====
section
/-! DEFINITION. One step: one phase of R13 (D22, log 1), or reset (R124). -/

namespace Sys2Proof.Machine

/-- Decodes fetched bytes at a stage and executes the instruction; passes a stop of the fetch on. -/
def runFetched (st : Stage) (fetched : Except Result (List Byte)) (s : State) : Result :=
  match fetched with
  | .error stop => stop
  | .ok bytes =>
    match decode st bytes with
    | .error e => .refused (.undecodable e)
    | .ok i => exec i s

/-- What a phase does (R13). -/
def runPhase (p : Phase) (s : State) : Result :=
  match p with
  | .idle => acceptFrame s
  | .filter => filterFrame s
  | .decode => if tooShort s then raiseDrop .dropTooShort s else runFetched .receive (fetchReceived s) s
  | .dispatch => runFetched .dispatch (fetchRequest s) s
  | .handler => takeAnswer s
  | .encode => chooseSegmentation s
  | .sendSF => runFetched .transmit (fetchSingle s) s
  | .sendFF => runFetched .transmit (fetchFirst s) s
  | .sendCF => runFetched .transmit (fetchConsecutive s) s

/-- An illegal configuration has no meaning (R15, R17); reset comes before everything else (R124); a reserved PHASE is
refused (R13). -/
def step (s : State) : Host.Outcome State Fault Refusal :=
  if !s.configurationLegal then .refused .illegalConfiguration
  else if s.resetLine then .next (applyReset s)
  else
    match Phase.ofCode s.phase with
    | none => .refused .reservedPhase
    | some p => runPhase p s

/-- The state with a table word where the next step fetches it (log 13). -/
def State.withFetchWord (s : State) (nbits w : Nat) : State :=
  placeFrame (tableStage (keyByte0 (w % 2 ^ nbits)) (keyByte1 (w % 2 ^ nbits)))
    (tableFrame (keyByte0 (w % 2 ^ nbits)) (keyByte1 (w % 2 ^ nbits))) s

end Sys2Proof.Machine
end

