-- ==== Sys2Proof/Machine/Handlers.lean ====
section
/-! DEFINITION. The handler port's contract, 44_handler_port.md R100..R108: which replies, and which new environment
state, the source says a handler may give. A contract on the environment, no block logic: no step reads it. Where the
source leaves a point open (91_not_in_source.md G21..G29), every choice is allowed (log 22), but a handler makes it as a
function of its state, the request and the seed drawn (R100, `KeepsContract`). -/

namespace Sys2Proof.Machine

/-- Every positive reply has `|P| <= 4094` (R101). -/
def replyBounded : Reply → Bool
  | .positive data => data.length ≤ 4094
  | .negative _ => true

/-- The NRCs a handler may return (R108), less 0x23's unnamed code. -/
def handlerNrcs (sid : Byte) : List Byte :=
  if sid = 0x10#8 then [0x31]
  else if sid = 0x11#8 then [0x31, 0x33]
  else if sid = 0x14#8 then [0x13, 0x33]
  else if sid = 0x22#8 then [0x31, 0x33]
  else if sid = 0x23#8 then [0x13, 0x31, 0x14, 0x33]
  else if sid = 0x27#8 then [0x7F, 0x12, 0x24, 0x13, 0x35]
  else []

/-- A rejection the source does not describe: some NRC of the SID's domain, and no change of the environment. -/
def rejected (sid : Byte) (h : HandlerState) (r : Reply) (h' : HandlerState) : Prop :=
  (∃ c ∈ handlerNrcs sid, r = .negative c) ∧ h' = h

/-- The big-endian value of bytes (R30, R106). -/
def bigEndian : List Byte → Nat
  | [] => 0
  | b :: more => b.toNat * 256 ^ more.length + bigEndian more

/-- Handler 0x10 (R102; G27 for further parameters). -/
def allowsDsc (h : HandlerState) (params : List Byte) (r : Reply) (h' : HandlerState) : Prop :=
  match params with
  | [] => True
  | t :: extra =>
    (t ∈ [0x01#8, 0x02, 0x03, 0x04] ∧ r = .positive [t, 0x00, 0x32, 0x13, 0x88]
      ∧ h' = { h with session := t, legacyFlag := false })
    ∨ (t ∉ [0x01#8, 0x02, 0x03, 0x04] ∧ r = .negative 0x31#8 ∧ h' = h)
    ∨ (extra ≠ [] ∧ rejected 0x10 h r h')

/-- Handler 0x11 (R103). What it resets behind the port is not stated (G29). -/
def allowsEr (h : HandlerState) (params : List Byte) (r : Reply) (h' : HandlerState) : Prop :=
  match params with
  | [] => True
  | t :: extra =>
    (t ∈ [0x01#8, 0x02, 0x03] ∧ ¬ (t = 0x01#8 ∧ h.grantedLevel = 0x00#8) ∧ r = .positive [t])
    ∨ (t = 0x01#8 ∧ h.grantedLevel = 0x00#8 ∧ r = .negative 0x33#8 ∧ h' = h)
    ∨ (t ∉ [0x01#8, 0x02, 0x03] ∧ r = .negative 0x31#8 ∧ h' = h)
    ∨ (extra ≠ [] ∧ rejected 0x11 h r h')

/-- Handler 0x14 (R104; G24 for the order of the gate and the length check). -/
def allowsCdtci (h : HandlerState) (params : List Byte) (r : Reply) (h' : HandlerState) : Prop :=
  h' = h ∧
    ((h.grantedLevel.toNat < 3 ∧ r = .negative 0x33#8)
    ∨ (params.length ≠ 3 ∧ r = .negative 0x13#8)
    ∨ (3 ≤ h.grantedLevel.toNat ∧ params.length = 3 ∧ r = .positive []))

/-- The 17 ASCII bytes of the VIN (R105, log 10). -/
def vinBytes (run : Nat) : List Byte := (List.range 17).map fun i => (Config.vin run i).setWidth 8

/-- Handler 0x22 (R105; G24, G27). -/
def allowsRdbi (h : HandlerState) (params : List Byte) (r : Reply) (h' : HandlerState) : Prop :=
  match params with
  | hi :: lo :: extra =>
    h' = h ∧
      ((h.grantedLevel.toNat < 2 ∧ r = .negative 0x33#8)
      ∨ (¬ (hi = 0xF1#8 ∧ lo = 0x90#8) ∧ r = .negative 0x31#8)
      ∨ (2 ≤ h.grantedLevel.toNat ∧ hi = 0xF1#8 ∧ lo = 0x90#8 ∧ r = .positive (0xF1 :: 0x90 :: vinBytes h.run))
      ∨ (extra ≠ [] ∧ rejected 0x22 h r h'))
  | _ => True

/-- `size` bytes of the Memory Image from an address on, wrapping modulo 65536 (R28, R106). -/
def imageBytes (run addr size : Nat) : List Byte :=
  (List.range size).map fun i => Config.memoryImage run (BitVec.ofNat 16 (addr + i))

/-- Handler 0x23 (R106; G24, G25, G26). An address field of one or two bytes reads the Memory Image. For a field of three
bytes or more, G26's open point (DESIGN CHOICE, log 22): a value below 65536 reads the image there or is rejected, a larger
value reads any `size` bytes or is rejected. -/
def allowsRmba (h : HandlerState) (params : List Byte) (r : Reply) (h' : HandlerState) : Prop :=
  match params with
  | [] => True
  | alfid :: rest =>
    let sizeLen := (pciType alfid).toNat
    let addrLen := (pciNibble alfid).toNat
    let formatOk := sizeLen ≠ 0 ∧ addrLen ≠ 0 ∧ rest.length = addrLen + sizeLen
    let addr := bigEndian (rest.take addrLen)
    let size := bigEndian (rest.drop addrLen)
    h' = h ∧
      ((h.grantedLevel ≠ 0x04#8 ∧ r = .negative 0x33#8)
      ∨ ((sizeLen = 0 ∨ addrLen = 0) ∧ ∃ c, r = .negative c)
      ∨ (rest.length ≠ addrLen + sizeLen ∧ r = .negative 0x13#8)
      ∨ (formatOk ∧ size = 0 ∧ r = .negative 0x31#8)
      ∨ (formatOk ∧ 4094 < size ∧ r = .negative 0x14#8)
      ∨ (formatOk ∧ h.grantedLevel = 0x04#8 ∧ 1 ≤ size ∧ size ≤ 4094 ∧ addr < 65536
          ∧ r = .positive (imageBytes h.run addr size))
      ∨ (formatOk ∧ h.grantedLevel = 0x04#8 ∧ 1 ≤ size ∧ size ≤ 4094 ∧ 3 ≤ addrLen
          ∧ ((65536 ≤ addr ∧ ∃ data, data.length = size ∧ r = .positive data) ∨ rejected 0x23 h r h')))

/-- Sessions 0x01 and 0x02 use the 1-byte width class (R107). -/
def oneByteClass (session : Byte) : Bool := session = 0x01#8 || session = 0x02#8

/-- Sessions 0x03 and 0x04 use the 2-byte width class (R107). -/
def twoByteClass (session : Byte) : Bool := session = 0x03#8 || session = 0x04#8

/-- The key expected in the 1-byte class (R107). -/
def expectedKey1 (h : HandlerState) : Byte :=
  if h.session = 0x01#8 then h.lastSeed1 + 1 else Config.session02Key1 h.run

/-- The key expected in the 2-byte class (R107; the mask is open, G23). -/
def expectedKey2 (h : HandlerState) : BitVec 16 :=
  if h.session = 0x03#8 then h.lastSeed2 ^^^ BitVec.ofNat 16 ((h.lastSeed2.toNat * 2) % Config.mask2)
  else h.lastSeed2 ^^^ h.prevSeed2

/-- A random seed of either width (R100, R107): a free input of a handler. -/
structure Draw where
  seed1 : Byte
  seed2 : BitVec 16
  deriving DecidableEq, Repr

/-- Session 0x01's next seed (R107 step 3): "first seed random, then `(last_seed + 2)`". What counts as the first seed is
open where session 0x02 has already issued a 1-byte seed, and where `last_seed` is 0 again after the count has wrapped
(R126 reads 0 as "no seed issued"): either reading is allowed there (DESIGN CHOICE, log 31). -/
def nextSeed01 (h : HandlerState) (d : Draw) (seed : Byte) : Prop :=
  ((h.issued01 = false ∨ h.lastSeed1 = 0) ∧ seed = d.seed1)
  ∨ ((h.issued01 = true ∨ h.lastSeed1 ≠ 0) ∧ seed = h.lastSeed1 + 2)

/-- requestSeed (R107 step 3): which environment states may follow. Session 0x04 keeps the old seed in `prev_seed`; in the
other sessions the source does not say whether it does, and both are allowed (DESIGN CHOICE, log 31). -/
def seedIssued (h : HandlerState) (d : Draw) (h' : HandlerState) : Prop :=
  (h.session = 0x01#8 ∧ ∃ seed prev, nextSeed01 h d seed ∧ prev ∈ [h.prevSeed1, h.lastSeed1]
    ∧ h' = { h with lastSeed1 := seed, prevSeed1 := prev, issued01 := true })
  ∨ (h.session = 0x02#8 ∧ ∃ prev, prev ∈ [h.prevSeed1, h.lastSeed1]
    ∧ h' = { h with lastSeed1 := d.seed1, prevSeed1 := prev })
  ∨ (h.session = 0x03#8 ∧ ∃ prev, prev ∈ [h.prevSeed2, h.lastSeed2]
    ∧ h' = { h with lastSeed2 := d.seed2, prevSeed2 := prev })
  ∨ (h.session = 0x04#8 ∧ h' = { h with lastSeed2 := d.seed2, prevSeed2 := h.lastSeed2 })

/-- A 16-bit value as two bytes, big-endian (R30). -/
def twoBytes (v : BitVec 16) : List Byte := [v.extractLsb' 8 8, v.extractLsb' 0 8]

/-- The last seed and the key expected for it, each as the bytes of the session's width class, big-endian (R30). -/
def seedAndKey (h : HandlerState) : List Byte × List Byte :=
  if oneByteClass h.session then ([h.lastSeed1], [expectedKey1 h])
  else (twoBytes h.lastSeed2, twoBytes (expectedKey2 h))

/-- The seed reply carries the seed and the expected key in clear (R107 step 3), each as consecutive bytes (R30), at any
place, in any order and among any other bytes (G21, log 22). -/
def carriesSeedAndKey (h' : HandlerState) (bytes : List Byte) : Prop :=
  (seedAndKey h').1 <:+: bytes ∧ (seedAndKey h').2 <:+: bytes

/-- No seed of the session's width class has been issued (R107 step 4, R126). -/
def noSeed (h : HandlerState) : Bool := if oneByteClass h.session then h.lastSeed1 = 0 else h.lastSeed2 = 0

/-- The session's key width in bytes (R107). -/
def keyWidth (h : HandlerState) : Nat := if oneByteClass h.session then 1 else 2

/-- The key is the expected one (R107 step 4). -/
def keyMatches (h : HandlerState) (key : List Byte) : Bool := key = (seedAndKey h).2

/-- sendKey (R107 step 4; the byte of the positive reply is open, G22; what a grant does to the legacy flag is not stated,
log 22). -/
def keySent (h : HandlerState) (key : List Byte) (r : Reply) (h' : HandlerState) : Prop :=
  if noSeed h then r = .negative 0x24#8 ∧ h' = h
  else if key.length ≠ keyWidth h then r = .negative 0x13#8 ∧ h' = h
  else if keyMatches h key then
    (∃ b, r = .positive [b]) ∧ ∃ legacy, h' = { h with grantedLevel := h.session, legacyFlag := legacy }
  else r = .negative 0x35#8 ∧ h' = h

/-- Handler 0x27, the steps in R107's order (G21, G27 for the seed reply's layout and further bytes). -/
def allowsSa (h : HandlerState) (params : List Byte) (d : Draw) (r : Reply) (h' : HandlerState) : Prop :=
  match params with
  | [] => True
  | sub :: data =>
    if !(oneByteClass h.session || twoByteClass h.session) then r = .negative 0x7F#8 ∧ h' = h
    else if sub = 0x01#8 then
      (seedIssued h d h' ∧ ∃ bytes, r = .positive bytes ∧ carriesSeedAndKey h' bytes)
      ∨ (data ≠ [] ∧ rejected 0x27 h r h')
    else if sub = 0x02#8 then keySent h data r h'
    else r = .negative 0x12#8 ∧ h' = h

/-- One answer within the contract (R100..R107): within R101's bound, in the same process run (R126: only process start
chooses the key constants, the image and the VIN), and what the SID's handler may do. A SID the source describes no handler
for, which only a reconfigured table can route, is bounded by R101 alone. -/
def handlerAllows (h : HandlerState) (req : Request) (d : Draw) (r : Reply) (h' : HandlerState) : Prop :=
  replyBounded r = true ∧ h'.run = h.run ∧
    (if req.sid = 0x10#8 then allowsDsc h req.params r h'
     else if req.sid = 0x11#8 then allowsEr h req.params r h'
     else if req.sid = 0x14#8 then allowsCdtci h req.params r h'
     else if req.sid = 0x22#8 then allowsRdbi h req.params r h'
     else if req.sid = 0x23#8 then allowsRmba h req.params r h'
     else if req.sid = 0x27#8 then allowsSa h req.params d r h'
     else True)

/-! ## Handlers as functions (R100) -/

/-- The handlers together: what they answer, given their state, the request and the seed drawn (R6's oracle). -/
abbrev HandlerOracle := HandlerState → Request → Draw → HandlerAnswer

/-- A requestSeed that is carried out (R107 steps 1 to 3). -/
def requestsSeed (h : HandlerState) (req : Request) : Bool :=
  req.sid = 0x27#8 && (oneByteClass h.session || twoByteClass h.session) && req.params.head? = some 0x01#8

/-- The part of a draw the source lets a call depend on: the seed of the session's width class, in a requestSeed whose seed
may be random (R100, R107). -/
def drawn (h : HandlerState) (req : Request) (d : Draw) : Option Nat :=
  if !requestsSeed h req || (h.session = 0x01#8 && h.issued01 && h.lastSeed1 ≠ 0) then none
  else some (if oneByteClass h.session then d.seed1.toNat else d.seed2.toNat)

/-- Handlers that keep the contract: every answer is allowed, and, but for the seeds drawn, they are deterministic given
their state (R100). The other random values R100 names are fixed for a process run (`HandlerState.run`, log 10). -/
structure KeepsContract (H : HandlerOracle) : Prop where
  allowed : ∀ h req d, handlerAllows h req d (H h req d).reply (H h req d).after
  deterministic : ∀ h req d d', drawn h req d = drawn h req d' → H h req d = H h req d'

end Sys2Proof.Machine
end

