-- ==== Sys2Proof/Machine/Segmentation.lean ====
section
/-! DEFINITION. The encode function of 42_tx_segmenter.md R86, as one function of the message, and the verification-only
reference reassembler of 43_reference_reassembler.md R95. No step reads either: the segmenter's register form is
Machine/Transmit.lean. -/

namespace Sys2Proof.Machine

/-- R86's loop: the consecutive frames of `m` from index `off` on, the first of them number `k`. The last slice is
clamped (R8). `fuel` bounds the turns; the message's length is enough. -/
def consecutiveFrames (m : List Byte) : Nat → Nat → Nat → List (List Byte)
  | 0, _, _ => []
  | fuel + 1, off, k =>
    if off < m.length then
      (pciByte 0x2#4 (BitVec.ofNat 4 (k % 15 + 1)) :: (m.drop off).take 7) :: consecutiveFrames m fuel (off + 7) (k + 1)
    else []

/-- `EncodeMessage(M)`, for `1 <= |M| <= 4095` (R86). -/
def encodeMessage (m : List Byte) : List (List Byte) :=
  if m.length ≤ 7 then [BitVec.ofNat 8 m.length :: m]
  else
    (pciByte 0x1#4 (lengthHigh (BitVec.ofNat 12 m.length)) :: lengthLow (BitVec.ofNat 12 m.length) :: m.take 6)
      :: consecutiveFrames m m.length 6 0

/-- R95's loop over the frames after the first: `k` is `j - 1`, `m` what has been put together, `t` the total. A frame
without bytes has no sequence number: BAD_SEQ (log 21). -/
def reassembleRest (t : Nat) : Nat → List Byte → List (List Byte) → Except ReassembleError (List Byte)
  | _, m, [] => if m.length = t then .ok m else .error .incomplete
  | k, m, f :: more =>
    if m.length = t then .error .trailingFrames
    else
      match f with
      | [] => .error .badSeq
      | b0 :: data =>
        if b0 ≠ pciByte 0x2#4 (BitVec.ofNat 4 (k % 15 + 1)) then .error .badSeq
        else if data.length ≠ min 7 (t - m.length) then .error .badCFLength
        else reassembleRest t (k + 1) (m ++ data) more

/-- `Reassemble(F)` (R95), strict as its text, R99 and D19 say: a single frame is taken only with exactly L bytes after the
PCI and `L <= 7`. What its pseudo-code would let through beside that is rejected under a free error name, and a first frame
without bytes, which has no type, is BAD_TYPE (log 21). -/
def reassemble (frames : List (List Byte)) : Except ReassembleError (List Byte) :=
  match frames with
  | [] => .error .empty
  | [] :: _ => .error .badType
  | (b0 :: data) :: more =>
    if pciType b0 = 0x0#4 then
      if more ≠ [] then .error .trailingFrames
      else if pciNibble b0 = 0#4 then .error .zeroLength
      else if data.length < (pciNibble b0).toNat then .error .lengthExceeds
      else if 7 < (pciNibble b0).toNat ∨ data.length ≠ (pciNibble b0).toNat then .error Config.looseSingleFrameError
      else .ok data
    else if pciType b0 = 0x1#4 then
      match data with
      | b1 :: m =>
        if m.length ≠ 6 then .error .badFF
        else if (ffLength b0 b1).toNat < 8 then .error .badFF
        else reassembleRest (ffLength b0 b1).toNat 0 m more
      | [] => .error .badFF
    else .error .badType

end Sys2Proof.Machine
end

