-- ==== Sys2Proof/Machine/Transaction.lean ====
section
/-! DEFINITION. A whole transaction as one function (92_eei_decisions.md D22: "one model step is either one whole
transaction or one phase"): the outcome in the priority of 60_exceptions.md R114, the frames of the response, the handler
call. No step reads it; an obligation states that the phases of Machine/Step.lean come to the same. -/

namespace Sys2Proof.Machine

/-- The request a received frame carries, or the drop of R63's first cause (R58). -/
def requestOf (policy : BitVec 2) (data : List Byte) : Except TxnOutcome Request :=
  match data with
  | b0 :: b1 :: rest =>
    if pciType b0 ≠ 0x0#4 then .error .dropNotSingleFrame
    else if availableBytes policy data.length < (pciNibble b0).toNat then .error .dropLengthExceeds
    else if pciNibble b0 = 0#4 ∧ !zeroLengthDispatches policy then .error .dropZeroLength
    else .ok { sid := b1, params := rest.take (paramCount (pciNibble b0) data.length) }
  | _ => .error .dropTooShort

/-- What a transaction comes to, before the TX port answers. -/
structure TxnResult where
  outcome : TxnOutcome
  frames : List (List Byte)
  calls : List Request
  deriving DecidableEq, Repr

/-- A negative response (R48, R76). -/
def negativeResponse (sid code : Byte) : List (List Byte) := encodeMessage [0x7F#8, sid, code]

/-- The transaction of a frame, given the reply the handler gives if it is called (R114). -/
def transaction (c : Configuration) (f : Frame) (reply : Reply) : TxnResult :=
  if f.id ≠ c.reqId then { outcome := .dropWrongId, frames := [], calls := [] }
  else
    match requestOf c.policy f.data with
    | .error drop => { outcome := drop, frames := [], calls := [] }
    | .ok req =>
      if !entryPresent (minEntry c.minParamLen req.sid) then
        { outcome := .respServiceNotSupported, frames := negativeResponse req.sid 0x11#8, calls := [] }
      else if req.params.length < entryMin (minEntry c.minParamLen req.sid) then
        { outcome := .respIncorrectLength, frames := negativeResponse req.sid 0x13#8, calls := [] }
      else
        match reply with
        | .positive data =>
          if Config.maxMessage < 1 + data.length then
            { outcome := .faultPayloadTooLarge, frames := [], calls := [req] }
          else
            { outcome := .respPositive, frames := encodeMessage (positiveSid req.sid :: data), calls := [req] }
        | .negative code =>
          { outcome := .respNegative, frames := negativeResponse req.sid code, calls := [req] }

/-- The frames that reach the TX port, with the transport's answers: up to and with the first that fails (R93, R94). -/
def delivered (id : CanId) : List (List Byte) → List TxStatus → List Sent
  | bytes :: more, .ok :: later => { frame := { id := id, data := bytes }, status := .ok } :: delivered id more later
  | bytes :: _, .fail :: _ => [{ frame := { id := id, data := bytes }, status := .fail }]
  | _, _ => []

end Sys2Proof.Machine
end

