-- ==== Sys2Proof/Safety.lean ====
section
/-! DEFINITION. What counts as a safe state and a safe run, in the terms the statements use: the invariant of the block's
registers (10_state.md, "legal" values; 42_tx_segmenter.md R88..R91), STATUS.FAULT (60_exceptions.md R113), the handler
contract (44_handler_port.md R101). -/

namespace Sys2Proof.Machine

/-- RSP_BUF holds the whole message: `1 <= T`, and each of its T bytes has a value (R21). -/
def messageStored (s : State) : Prop :=
  1 ≤ s.rspLen.toNat ∧ ∀ a, a < s.rspLen.toNat → s.rspBuf.read a ≠ none

/-- What a phase finds in the registers it reads (R13, R85, R88, R89, R90, R91). -/
def phaseReady (p : Phase) (s : State) : Prop :=
  match p with
  | .idle | .filter | .decode | .dispatch | .handler => True
  | .encode => messageStored s
  | .sendSF => messageStored s ∧ s.rspLen.toNat ≤ 7
  | .sendFF => messageStored s ∧ 8 ≤ s.rspLen.toNat
  | .sendCF =>
    messageStored s ∧ 8 ≤ s.rspLen.toNat ∧ 6 ≤ s.txOff.toNat ∧ s.txOff.toNat < s.rspLen.toNat
      ∧ (s.txOff.toNat - 6) % 7 = 0 ∧ s.txSeq.toNat = (s.txOff.toNat - 6) / 7 % 15 + 1

/-- The block's registers hold legal values, and the transport offers classic frames only (R13, R15, R17, R19, R20, R21,
R22, R27, R37, R109). -/
structure Inv (s : State) : Prop where
  configuration : s.configurationLegal = true
  phase : ∃ p, Phase.ofCode s.phase = some p ∧ phaseReady p s
  rxLen : s.rxLen.toNat ≤ 8
  reqNParam : s.reqNParam.toNat ≤ 6
  rspBuf : s.rspBuf.wf = true
  lastOutcome : s.lastOutcome.toNat ≤ 0xB
  rxPort : ∀ f ∈ s.rxPort, f.data.length ≤ 8

/-- A safe state: the sticky fault bit is clear (R113). -/
def Safe (s : State) : Prop := s.faultBit = false

/-- Every answer the environment will give is within R101's bound. -/
def answersBounded (s : State) : Prop := ∀ a ∈ s.hpPort, replyBounded a.reply = true

/-- The request the block presents on the handler port in HANDLER (R37, R73). -/
def State.hpRequest (s : State) : Request := { sid := s.reqSid, params := s.reqParams }

/-- The answer the environment gives next keeps the handler contract (R100..R107), for some seed drawn. -/
def nextAnswerAllowed (s : State) : Prop :=
  ∀ a later, s.hpPort = a :: later → ∃ d, handlerAllows s.handlers s.hpRequest d a.reply a.after

/-- The answer the environment gives next is these handlers' answer to the request presented (R100). -/
def answeredBy (H : HandlerOracle) (s : State) : Prop :=
  ∃ d later, s.hpPort = H s.handlers s.hpRequest d :: later

/-- The state after a number of steps, none if the machine stopped on the way. -/
def runFor : Nat → State → Option State
  | 0, s => some s
  | n + 1, s =>
    match step s with
    | .next t => runFor n t
    | _ => none

end Sys2Proof.Machine
end

