-- ==== Sys2Proof/Certificates/Slice0/Obligations.lean ====
section
/-! DEFINITION. The statements for the provers. Each docstring names the rules of spec/ it formalises. The configuration
is part of the state, so a statement about every state holds for every configuration. -/

open Sys2Proof Sys2Proof.Machine

/-- The dispatch rows of the opcode table with the SID each of them serves (30_encoding.md R51). -/
def Sys2Proof.Machine.serviceRow (i : Instr) (sid : Byte) (params : List Byte) : Prop :=
  (i = .dsc params ∧ sid = 0x10#8) ∨ (i = .er params ∧ sid = 0x11#8) ∨ (i = .cdtci params ∧ sid = 0x14#8)
  ∨ (i = .rdbi params ∧ sid = 0x22#8) ∨ (i = .rmba params ∧ sid = 0x23#8) ∨ (i = .sa params ∧ sid = 0x27#8)
  ∨ i = .sidUnsupported sid params

/-- A machine that runs: a legal configuration, no reset asserted, in the given phase. -/
def Sys2Proof.Machine.runsIn (p : Phase) (s : State) : Prop :=
  s.configurationLegal = true ∧ s.resetLine = false ∧ s.phase = p.code

/-! ## Encoding -/

/-- Decoding the frame of any well-formed instruction at its stage gives the instruction back, every operand at every
value (R44..R48, R50, R51, R52). -/
def Obligations.DecodeInvertsEncode : Prop :=
  ∀ i : Instr, i.wf = true → decode i.stage (encode i) = .ok i

/-- At the receive and the transmit stage a decoded frame is the frame of the instruction it decodes to: no bit is
dropped (R44, R50, R52). -/
def Obligations.EncodeInvertsDecode : Prop :=
  ∀ (st : Stage) (bytes : List Byte) (i : Instr), st ≠ .dispatch → decode st bytes = .ok i → encode i = bytes

/-- What the decoder answers is well-formed and belongs to the stage it was read at (R45, R46, R47, R51). -/
def Obligations.DecodedInstructionsAreWellFormed : Prop :=
  ∀ (st : Stage) (bytes : List Byte) (i : Instr), decode st bytes = .ok i → i.wf = true ∧ i.stage = st

/-- R50, the primary map: every frame of 2 to 8 bytes on the receive side is RX.SF, RX.FF, RX.CF or RX.OTHER by byte 0
bits [7:4]; and each but RX.SF is dropped with NOT_SINGLE_FRAME. -/
def Obligations.PrimaryMapClassifiesEveryFrame : Prop :=
  ∀ (b0 b1 : Byte) (rest : List Byte), rest.length ≤ 6 →
    ∃ i, decode .receive (b0 :: b1 :: rest) = .ok i ∧
      (b0.toNat / 16 = 0 → i = .rxSF (BitVec.ofNat 4 b0.toNat) b1 rest) ∧
      (b0.toNat / 16 = 1 → ∃ tlen, i = .rxFF tlen rest ∧ tlen.toNat = b0.toNat % 16 * 256 + b1.toNat) ∧
      (b0.toNat / 16 = 2 → i = .rxCF (BitVec.ofNat 4 b0.toNat) (b1 :: rest)) ∧
      (b0.toNat / 16 = 3 → i = .rxOther3 (BitVec.ofNat 4 b0.toNat) (b1 :: rest)) ∧
      (4 ≤ b0.toNat / 16 → b0.toNat / 16 ≤ 7 →
        ∃ ty, i = .rxOther4to7 ty (BitVec.ofNat 4 b0.toNat) (b1 :: rest) ∧ ty.toNat = b0.toNat / 16 - 4) ∧
      (8 ≤ b0.toNat / 16 →
        ∃ ty, i = .rxOther8toF ty (BitVec.ofNat 4 b0.toNat) (b1 :: rest) ∧ ty.toNat = b0.toNat / 16 - 8) ∧
      (b0.toNat / 16 ≠ 0 → ∀ s, exec i s =
        .next { s with out := .dropNotSingleFrame, lastOutcome := 0x3#4, phase := 0x0#4 })

/-- Frames written out from the spec's encodings decode to the instructions they stand for (R45, R46, R47, R48, the
examples of R65, R66, R67, R68, R78, R82, R71, R87, R88, R89, R76). -/
def Obligations.SampleFramesDecode : Prop :=
  decode .receive [0x03, 0x22, 0xF1, 0x90] = .ok (.rxSF 3 0x22 [0xF1, 0x90])
  ∧ decode .receive [0x10, 0x08, 0x22, 0xF1, 0x90, 0xF1, 0x91, 0xF1]
      = .ok (.rxFF 8 [0x22, 0xF1, 0x90, 0xF1, 0x91, 0xF1])
  ∧ decode .receive [0x21, 0x01, 0x02] = .ok (.rxCF 1 [0x01, 0x02])
  ∧ decode .receive [0x30, 0x00, 0x00] = .ok (.rxOther3 0 [0x00, 0x00])
  ∧ decode .dispatch [0x02, 0x10, 0x01] = .ok (.dsc [0x01])
  ∧ decode .dispatch [0x07, 0x23, 0x14, 0x00, 0x00, 0x10, 0x00, 0x04]
      = .ok (.rmba [0x14, 0x00, 0x00, 0x10, 0x00, 0x04])
  ∧ decode .dispatch [0x01, 0x3E] = .ok (.sidUnsupported 0x3E [])
  ∧ decode .transmit [0x01, 0x54] = .ok (.txSF 0x54 [])
  ∧ decode .transmit [0x10, 0x14, 0x62, 0xF1, 0x90, 0x41, 0x42, 0x43]
      = .ok (.txFF 20 [0x62, 0xF1, 0x90, 0x41, 0x42, 0x43])
  ∧ decode .transmit [0x2F, 0x01] = .ok (.txCF 15 [0x01])
  ∧ decode .transmit [0x03, 0x7F, 0x11, 0x33] = .ok (.txNR 0x11 0x33)

/-! ## A step runs the decoded instruction -/

/-- DECODE executes what the received bytes decode to, once there are two of them (R58, R59, R65..R68). -/
def Obligations.DecodePhaseRunsReceivedInstruction : Prop :=
  ∀ (s : State) (i : Instr), runsIn .decode s → 2 ≤ s.rxLen.toNat → s.rxLen.toNat ≤ 8 →
    decode .receive s.rxBytes = .ok i → step s = exec i s

/-- DISPATCH executes the row of the SID in REQ_SID with the parameters in REQ_PARAM (R51, R70). -/
def Obligations.DispatchPhaseRunsServiceRow : Prop :=
  ∀ (s : State), runsIn .dispatch s → s.reqNParam.toNat ≤ 6 →
    ∃ i, serviceRow i s.reqSid s.reqParams ∧ i.wf = true ∧ step s = exec i s

/-- The SEND_* phases execute the transmit row whose frame is the next one of the message in RSP_BUF (R87, R88, R89). -/
def Obligations.SendPhasesRunOutboundInstruction : Prop :=
  ∀ (s : State) (i : Instr) (m : List Byte), s.configurationLegal = true → s.resetLine = false →
    m.length = s.rspLen.toNat → s.rspBuf.readBytes 0 m.length = some m →
      (s.phase = 0x6#4 → decode .transmit (BitVec.ofNat 8 m.length :: m) = .ok i → step s = exec i s)
      ∧ (s.phase = 0x7#4 → 6 ≤ m.length →
          decode .transmit (BitVec.ofNat 8 (0x10 + m.length / 256) :: BitVec.ofNat 8 (m.length % 256) :: m.take 6) = .ok i →
          step s = exec i s)
      ∧ (s.phase = 0x8#4 → s.txOff.toNat ≤ m.length →
          decode .transmit (BitVec.ofNat 8 (0x20 + s.txSeq.toNat) :: (m.drop s.txOff.toNat).take 7) = .ok i →
          step s = exec i s)

/-- A table word placed by `withFetchWord` is run by the very next step, as the instruction the decoder reads from it: in
every legal state without reset (log 12, log 13: how a word is read and placed is the model's choice). -/
def Obligations.PlacedWordIsRunByTheNextStep : Prop :=
  ∀ (s : State) (w : Nat) (i : Instr), s.configurationLegal = true → s.resetLine = false →
    decodeTableWord 16 w = some i → step (s.withFetchWord 16 w) = exec i (s.withFetchWord 16 w)

/-! ## The RX side -/

/-- R56: in IDLE the offered frame is latched and FILTER follows; in any other phase it stays offered. That the offered
frames are a list in the state is the model's choice (log 7). -/
def Obligations.AcceptanceLatchesTheFrame : Prop :=
  (∀ (s : State) (f : Frame) (later : List Frame), runsIn .idle s → s.rxPort = f :: later → f.data.length ≤ 8 →
    ∃ t, step s = .next t ∧ t.rxId = f.id ∧ t.rxLen.toNat = f.data.length ∧ t.rxBytes = f.data
      ∧ t.busy = true ∧ t.rxReady = false
      ∧ t = { s with phase := 0x1#4, rxId := f.id, rxLen := t.rxLen, rxData := t.rxData, rxPort := later })
  ∧ (∀ s t : State, step s = .next t → s.phase ≠ 0x0#4 → t.rxPort = s.rxPort)

/-- R57: a frame on another identifier is dropped, all 11 bits compared; on the request identifier DECODE follows. -/
def Obligations.FilterComparesTheIdentifier : Prop :=
  ∀ s : State, runsIn .filter s →
    (s.rxId ≠ s.cfgReqId → step s = .next { s with out := .dropWrongId, lastOutcome := 0x1#4, phase := 0x0#4 })
    ∧ (s.rxId = s.cfgReqId → step s = .next { s with phase := 0x2#4 })

/-- R59: a frame of length 0 or 1 is dropped as TOO_SHORT, whatever its bytes are. -/
def Obligations.ShortFramesAreDropped : Prop :=
  ∀ s : State, runsIn .decode s → s.rxLen.toNat < 2 →
    step s = .next { s with out := .dropTooShort, lastOutcome := 0x2#4, phase := 0x0#4 }

/-- R60: a frame whose PCI type is not 0 is dropped as NOT_SINGLE_FRAME, and nothing of it is kept. -/
def Obligations.NonSingleFramesAreDropped : Prop :=
  ∀ s : State, runsIn .decode s → 2 ≤ s.rxLen.toNat → s.rxLen.toNat ≤ 8 → s.rxData[0].toNat / 16 ≠ 0 →
    step s = .next { s with out := .dropNotSingleFrame, lastOutcome := 0x3#4, phase := 0x0#4 }

/-- R66, R67, R68: RX.FF, RX.CF and the three rows of RX.OTHER drop the frame; that is all they do. -/
def Obligations.MultiFrameRowsDrop : Prop :=
  ∀ s : State,
    (∀ tlen rest, exec (.rxFF tlen rest) s =
      .next { s with out := .dropNotSingleFrame, lastOutcome := 0x3#4, phase := 0x0#4 })
    ∧ (∀ n rest, exec (.rxCF n rest) s =
      .next { s with out := .dropNotSingleFrame, lastOutcome := 0x3#4, phase := 0x0#4 })
    ∧ (∀ nib rest, exec (.rxOther3 nib rest) s =
      .next { s with out := .dropNotSingleFrame, lastOutcome := 0x3#4, phase := 0x0#4 })
    ∧ (∀ ty nib rest, exec (.rxOther4to7 ty nib rest) s =
      .next { s with out := .dropNotSingleFrame, lastOutcome := 0x3#4, phase := 0x0#4 })
    ∧ (∀ ty nib rest, exec (.rxOther8toF ty nib rest) s =
      .next { s with out := .dropNotSingleFrame, lastOutcome := 0x3#4, phase := 0x0#4 })

/-- R61: RX.SF drops a declared length over the available bytes, which are the frame length less one under `after_pci`
and the frame length under `whole_frame`. -/
def Obligations.DeclaredLengthIsChecked : Prop :=
  ∀ (s : State) (l : Nibble) (sid : Byte) (rest : List Byte),
    (if s.cfgPolicy.toNat / 2 = 0 then (2 + rest.length) - 1 else 2 + rest.length) < l.toNat →
    exec (.rxSF l sid rest) s = .next { s with out := .dropLengthExceeds, lastOutcome := 0x4#4, phase := 0x0#4 }

/-- R62: a zero declared length is dropped under `drop`, dispatched with byte 1 as the SID under `dispatch_byte1`. -/
def Obligations.ZeroLengthFollowsThePolicy : Prop :=
  ∀ (s : State) (sid : Byte) (rest : List Byte),
    (s.cfgPolicy.toNat % 2 = 0 →
      exec (.rxSF 0#4 sid rest) s = .next { s with out := .dropZeroLength, lastOutcome := 0x5#4, phase := 0x0#4 })
    ∧ (s.cfgPolicy.toNat % 2 = 1 →
      ∃ t, exec (.rxSF 0#4 sid rest) s = .next t ∧ t.reqSid = sid ∧ t.reqNParam = 0#3 ∧ t.reqParams = []
        ∧ t = { s with phase := 0x3#4, reqSid := sid, reqNParam := 0#3, reqParam := t.reqParam })

/-- R64: RX.SF with `1 <= L <= avail` writes the SID and `min(L, RX_LEN - 1) - 1` parameters, and DISPATCH follows.
Nothing else changes, no byte of RSP_BUF among it. -/
def Obligations.SingleFrameIsExtracted : Prop :=
  ∀ (s : State) (l : Nibble) (sid : Byte) (rest : List Byte), rest.length ≤ 6 → 1 ≤ l.toNat →
    l.toNat ≤ (if s.cfgPolicy.toNat / 2 = 0 then (2 + rest.length) - 1 else 2 + rest.length) →
    ∃ t, exec (.rxSF l sid rest) s = .next t ∧ t.reqSid = sid
      ∧ t.reqNParam.toNat = min l.toNat ((2 + rest.length) - 1) - 1 ∧ t.reqNParam.toNat ≤ 6
      ∧ (∀ i, i < t.reqNParam.toNat → t.reqParams[i]? = rest[i]?) ∧ t.reqParams.length = t.reqNParam.toNat
      ∧ t = { s with phase := 0x3#4, reqSid := sid, reqNParam := t.reqNParam, reqParam := t.reqParam }

/-- R63: of several drop causes the first in the order WRONG_ID, TOO_SHORT, NOT_SINGLE_FRAME, LENGTH_EXCEEDS,
ZERO_LENGTH is recorded, and the frame is dropped silently. -/
def Obligations.FirstDropCauseIsRecorded : Prop :=
  ∀ (s : State) (drop : TxnOutcome), runsIn .filter s → s.rxLen.toNat ≤ 8 →
    (if s.rxId ≠ s.cfgReqId then drop = .dropWrongId
     else if s.rxLen.toNat < 2 then drop = .dropTooShort
     else if s.rxData[0].toNat / 16 ≠ 0 then drop = .dropNotSingleFrame
     else if (if s.cfgPolicy.toNat / 2 = 0 then s.rxLen.toNat - 1 else s.rxLen.toNat) < s.rxData[0].toNat % 16 then
       drop = .dropLengthExceeds
     else s.rxData[0].toNat % 16 = 0 ∧ s.cfgPolicy.toNat % 2 = 0 ∧ drop = .dropZeroLength) →
    ∃ n, (n = 1 ∨ n = 2) ∧ runFor n s = some { s with out := drop, lastOutcome := drop.code, phase := 0x0#4 }

/-! ## The dispatcher -/

/-- R71: a SID absent from the table gets the message `[0x7F, SID, 0x11]`, whatever the parameter count, and no handler
call. -/
def Obligations.AbsentSidGetsServiceNotSupported : Prop :=
  ∀ (i : Instr) (sid : Byte) (params : List Byte) (s : State), serviceRow i sid params →
    entryPresent (minEntry s.minParamLen sid) = false →
    ∃ t, exec i s = .next t ∧ t.rspLen.toNat = 3 ∧ t.rspBuf.read 0 = some 0x7F#8 ∧ t.rspBuf.read 1 = some sid
      ∧ t.rspBuf.read 2 = some 0x11#8 ∧ (∀ a, 3 ≤ a → t.rspBuf.read a = s.rspBuf.read a)
      ∧ t.hpLog = s.hpLog
      ∧ t = { s with phase := 0x5#4, rspLen := 3#12, rspBuf := t.rspBuf, out := .respServiceNotSupported }

/-- R72: fewer parameters than MIN of a present SID get the message `[0x7F, SID, 0x13]` and no handler call. -/
def Obligations.ShortRequestGetsIncorrectLength : Prop :=
  ∀ (i : Instr) (sid : Byte) (params : List Byte) (s : State), serviceRow i sid params →
    entryPresent (minEntry s.minParamLen sid) = true → params.length < entryMin (minEntry s.minParamLen sid) →
    ∃ t, exec i s = .next t ∧ t.rspLen.toNat = 3 ∧ t.rspBuf.read 0 = some 0x7F#8 ∧ t.rspBuf.read 1 = some sid
      ∧ t.rspBuf.read 2 = some 0x13#8 ∧ (∀ a, 3 ≤ a → t.rspBuf.read a = s.rspBuf.read a)
      ∧ t.hpLog = s.hpLog
      ∧ t = { s with phase := 0x5#4, rspLen := 3#12, rspBuf := t.rspBuf, out := .respIncorrectLength }

/-- R70, R73, R78..R83: DSC, ER, CDTCI, RDBI, RMBA and SA (and a SID a reconfigured table adds), present and long enough,
present the request with its parameters on the handler port once and wait in HANDLER. Nothing else changes. -/
def Obligations.ServiceRowsCallTheHandler : Prop :=
  ∀ (i : Instr) (sid : Byte) (params : List Byte) (s : State), serviceRow i sid params →
    entryPresent (minEntry s.minParamLen sid) = true → entryMin (minEntry s.minParamLen sid) ≤ params.length →
    exec i s = .next { s with phase := 0x4#4, hpLog := s.hpLog ++ [{ sid := sid, params := params }] }

/-- R74: a positive reply becomes the message `[(REQ_SID + 0x40) mod 256] ++ P`. -/
def Obligations.PositiveReplyIsAssembled : Prop :=
  ∀ (s : State) (data : List Byte) (h : HandlerState) (later : List HandlerAnswer), runsIn .handler s →
    s.hpPort = { reply := .positive data, after := h } :: later → data.length ≤ 4094 →
    ∃ t m0, step s = .next t ∧ t.rspLen.toNat = 1 + data.length
      ∧ m0.toNat = (s.reqSid.toNat + 0x40) % 256 ∧ t.rspBuf.read 0 = some m0
      ∧ (∀ i, i < data.length → t.rspBuf.read (1 + i) = data[i]?)
      ∧ (∀ a, 1 + data.length ≤ a → t.rspBuf.read a = s.rspBuf.read a)
      ∧ t = { s with phase := 0x5#4, rspLen := t.rspLen, rspBuf := t.rspBuf, out := .respPositive, hpPort := later
                     handlers := h }

/-- R75: a negative reply becomes the message `[0x7F, REQ_SID, c]`, for every byte c. -/
def Obligations.NegativeReplyPassesThrough : Prop :=
  ∀ (s : State) (code : Byte) (h : HandlerState) (later : List HandlerAnswer), runsIn .handler s →
    s.hpPort = { reply := .negative code, after := h } :: later →
    ∃ t, step s = .next t ∧ t.rspLen.toNat = 3 ∧ t.rspBuf.read 0 = some 0x7F#8 ∧ t.rspBuf.read 1 = some s.reqSid
      ∧ t.rspBuf.read 2 = some code ∧ (∀ a, 3 ≤ a → t.rspBuf.read a = s.rspBuf.read a)
      ∧ t = { s with phase := 0x5#4, rspLen := 3#12, rspBuf := t.rspBuf, out := .respNegative, hpPort := later
                     handlers := h }

/-- R84, R98, R113: a positive reply with `|P| > 4094` emits nothing, sets the sticky fault bit and ends the transaction;
the handler's effects stay made. -/
def Obligations.OversizedReplyRaisesTheFault : Prop :=
  ∀ (s : State) (data : List Byte) (h : HandlerState) (later : List HandlerAnswer), runsIn .handler s →
    s.hpPort = { reply := .positive data, after := h } :: later → 4094 < data.length →
    step s = .next { s with phase := 0x0#4, lastOutcome := 0xA#4, faultBit := true, out := .faultPayloadTooLarge
                            hpPort := later, handlers := h }

/-- Where the environment has not answered, the block stays as it is: in IDLE without a frame, in HANDLER without a
reply, in SEND_SF, SEND_FF and SEND_CF without a tx_status (R73, R93, R123; the model's own form of waiting, log 7). -/
def Obligations.BlockWaitsForTheEnvironment : Prop :=
  ∀ s : State, Inv s → s.resetLine = false →
    ((s.phase = 0x0#4 ∧ s.rxPort = []) ∨ (s.phase = 0x4#4 ∧ s.hpPort = [])
      ∨ ((s.phase = 0x6#4 ∨ s.phase = 0x7#4 ∨ s.phase = 0x8#4) ∧ s.txPort = [])) →
    step s = .next s

/-- R85: ENCODE picks the single frame if and only if `T <= 7`. -/
def Obligations.SingleFrameIffAtMostSeven : Prop :=
  ∀ s : State, runsIn .encode s → 1 ≤ s.rspLen.toNat →
    ∃ t, step s = .next t ∧ (t.phase = 0x6#4 ↔ s.rspLen.toNat ≤ 7) ∧ (t.phase = 0x7#4 ↔ 8 ≤ s.rspLen.toNat)
      ∧ t = { s with phase := t.phase }

/-! ## The TX side -/

/-- R87: TX.SF emits `[T] ++ M` on CFG_RESP_ID, and with `ok` the transaction ends recording OUT. -/
def Obligations.SingleFrameIsEmitted : Prop :=
  ∀ (s : State) (m0 : Byte) (rest : List Byte) (later : List TxStatus), rest.length ≤ 6 → s.txPort = .ok :: later →
    exec (.txSF m0 rest) s =
      .next { s with
        phase := 0x0#4, lastOutcome := s.out.code, txPort := later
        txLog := s.txLog ++ [{ frame := { id := s.cfgRespId, data := BitVec.ofNat 8 (1 + rest.length) :: m0 :: rest }
                               status := .ok }] }

/-- R88: TX.FF emits `[0x10 | T[11:8], T[7:0]] ++ M[0:6]`; TX_OFF becomes 6, TX_SEQ 1, and the consecutive frames
follow (PHASE is SEND_CF at once: the model's choice, log 18). -/
def Obligations.FirstFrameIsEmitted : Prop :=
  ∀ (s : State) (tlen : BitVec 12) (data : List Byte) (later : List TxStatus), s.txPort = .ok :: later →
    exec (.txFF tlen data) s =
      .next { s with
        phase := 0x8#4, txOff := 6#12, txSeq := 1#4, txPort := later
        txLog := s.txLog ++ [{ frame := { id := s.cfgRespId
                                          data := BitVec.ofNat 8 (0x10 + tlen.toNat / 256)
                                            :: BitVec.ofNat 8 (tlen.toNat % 256) :: data }
                               status := .ok }] }

/-- R89, R90: TX.CF emits `[0x20 | N]` and its bytes; TX_OFF advances by them, N is followed by N + 1 and 15 by 1; the
transaction ends once TX_OFF reaches T. -/
def Obligations.ConsecutiveFrameIsEmitted : Prop :=
  ∀ (s : State) (n : Nibble) (data : List Byte) (later : List TxStatus), s.txPort = .ok :: later →
    s.txOff.toNat + data.length ≤ 4095 →
    ∃ t, exec (.txCF n data) s = .next t ∧ t.txOff.toNat = s.txOff.toNat + data.length
      ∧ t.txSeq.toNat = (if n.toNat = 15 then 1 else n.toNat + 1)
      ∧ (s.txOff.toNat + data.length < s.rspLen.toNat → t.phase = 0x8#4 ∧ t.lastOutcome = s.lastOutcome)
      ∧ (s.rspLen.toNat ≤ s.txOff.toNat + data.length → t.phase = 0x0#4 ∧ t.lastOutcome = s.out.code)
      ∧ t = { s with
          phase := t.phase, lastOutcome := t.lastOutcome, txOff := t.txOff, txSeq := t.txSeq, txPort := later
          txLog := s.txLog ++ [{ frame := { id := s.cfgRespId, data := BitVec.ofNat 8 (0x20 + n.toNat) :: data }
                                 status := .ok }] }

/-- R48, R76: TX.NR writes the message `[0x7F, SID, NRC]` and emits it as `[0x03, 0x7F, SID, NRC]`; that one instruction
does both is the model's choice (log 15). -/
def Obligations.NegativeResponseIsEmitted : Prop :=
  ∀ (s : State) (sid nrc : Byte) (later : List TxStatus), s.txPort = .ok :: later →
    ∃ t, exec (.txNR sid nrc) s = .next t ∧ t.rspBuf.read 0 = some 0x7F#8 ∧ t.rspBuf.read 1 = some sid
      ∧ t.rspBuf.read 2 = some nrc ∧ (∀ a, 3 ≤ a → t.rspBuf.read a = s.rspBuf.read a)
      ∧ t = { s with
          phase := 0x0#4, lastOutcome := s.out.code, rspLen := 3#12, rspBuf := t.rspBuf, txPort := later
          txLog := s.txLog ++ [{ frame := { id := s.cfgRespId, data := [0x03#8, 0x7F#8, sid, nrc] }, status := .ok }] }

/-- R94: with `fail` a transmit row ends the transaction as TX_ABORTED, FAULT is left alone, and nothing is retried. That
TX_OFF and TX_SEQ keep their values is the model's choice (log 17), and so is that TX.NR has written its message before it
emits (log 15). -/
def Obligations.SendFailureAborts : Prop :=
  ∀ (s : State) (i : Instr) (later : List TxStatus), i.stage = .transmit → s.txPort = .fail :: later →
    ∃ t, exec i s = .next t ∧ t.faultBit = s.faultBit
      ∧ t = { s with
          phase := 0x0#4, lastOutcome := 0xB#4, out := .txAborted, txPort := later
          rspLen := t.rspLen, rspBuf := t.rspBuf
          txLog := s.txLog ++ [{ frame := { id := s.cfgRespId, data := encode i }, status := .fail }] }
      ∧ ((∀ sid nrc, i ≠ .txNR sid nrc) → t.rspLen = s.rspLen ∧ t.rspBuf = s.rspBuf)
      ∧ (∀ sid nrc, i = .txNR sid nrc →
          t.rspLen.toNat = 3 ∧ t.rspBuf.read 0 = some 0x7F#8 ∧ t.rspBuf.read 1 = some sid ∧ t.rspBuf.read 2 = some nrc
          ∧ ∀ a, 3 ≤ a → t.rspBuf.read a = s.rspBuf.read a)

/-! ## Whole-machine rules -/

/-- R14, R15, R16, R17, R18: no step, reset included, writes a configuration register. -/
def Obligations.ConfigurationIsNeverWritten : Prop :=
  ∀ s t : State, step s = .next t → t.configuration = s.configuration

/-- R113: STATUS.FAULT is sticky, and a step without reset sets it only for a positive reply of more than 4094 bytes. -/
def Obligations.FaultBitIsStickyAndSetByOversizedReplies : Prop :=
  ∀ s t : State, s.resetLine = false → step s = .next t →
    (s.faultBit = true → t.faultBit = true)
    ∧ (s.faultBit = false → t.faultBit = true →
        s.phase = 0x4#4 ∧ ∃ data h later, s.hpPort = { reply := .positive data, after := h } :: later ∧ 4094 < data.length)

/-- R23: the fields of STATUS. -/
def Obligations.StatusFieldsReadAsSpecified : Prop :=
  ∀ s : State,
    s.status.extractLsb' 0 4 = s.lastOutcome ∧ s.status.getLsbD 4 = s.faultBit
    ∧ (s.status.getLsbD 5 = true ↔ s.phase ≠ 0x0#4) ∧ s.status.getLsbD 6 = false ∧ s.status.getLsbD 7 = false

/-- R111: LAST_OUTCOME is written when a transaction ends, with OUT, and at no other step; at the end BUSY is 0. -/
def Obligations.LastOutcomeIsWrittenAtTheEnd : Prop :=
  ∀ s t : State, s.resetLine = false → step s = .next t →
    (s.phase ≠ 0x0#4 → t.phase = 0x0#4 → t.lastOutcome = t.out.code ∧ t.rxReady = true)
    ∧ ((s.phase = 0x0#4 ∨ t.phase ≠ 0x0#4) → t.lastOutcome = s.lastOutcome)

/-- R92, R53, R33: a step emits at most one frame, only in a SEND_* phase, on CFG_RESP_ID, in an outbound format, and it
takes one answer of the TX port for it. -/
def Obligations.EmittedFramesAreOutboundFrames : Prop :=
  ∀ s t : State, step s = .next t →
    (t.txLog = s.txLog ∧ t.txPort = s.txPort)
    ∨ ∃ x i, t.txLog = s.txLog ++ [x] ∧ s.txPort = x.status :: t.txPort ∧ x.frame.id = s.cfgRespId
        ∧ x.frame.data = encode i ∧ i.wf = true ∧ i.stage = .transmit
        ∧ (s.phase = 0x6#4 ∨ s.phase = 0x7#4 ∨ s.phase = 0x8#4)

/-- R34, R73: a handler call is made by DISPATCH alone, once, with the request in REQ_*, for a present SID with enough
parameters, and HANDLER follows. -/
def Obligations.HandlerIsCalledByDispatchAlone : Prop :=
  ∀ s t : State, step s = .next t →
    t.hpLog = s.hpLog
    ∨ (s.phase = 0x3#4 ∧ t.phase = 0x4#4 ∧ t.hpLog = s.hpLog ++ [s.hpRequest]
        ∧ entryPresent (minEntry s.minParamLen s.reqSid) = true
        ∧ entryMin (minEntry s.minParamLen s.reqSid) ≤ s.reqNParam.toNat)

/-- R25, R110: without reset, the state behind the handler port changes only by the answer taken in HANDLER. -/
def Obligations.OutsideStateChangesOnlyByAnswers : Prop :=
  ∀ s t : State, s.resetLine = false → step s = .next t →
    (t.handlers = s.handlers ∧ t.hpPort = s.hpPort)
    ∨ (s.phase = 0x4#4 ∧ ∃ a, s.hpPort = a :: t.hpPort ∧ t.handlers = a.after)

/-- R118: what a step does to the block does not depend on the state behind the handler port. -/
def Obligations.BlockIsIndependentOfOutsideState : Prop :=
  ∀ (s t : State) (h : HandlerState), s.resetLine = false → step s = .next t →
    ∃ h', step { s with handlers := h } = .next { t with handlers := h' }
      ∧ (s.phase ≠ 0x4#4 → h' = h)

/-- R13: the phases advance in the order the rule gives; a drop, a fault or an abort returns to IDLE; a wait, which is a
step that stays, is the model's own form (log 7). -/
def Obligations.PhasesAdvanceInOrder : Prop :=
  ∀ s t : State, s.resetLine = false → step s = .next t →
    (s.phase, t.phase) ∈
      [(0x0#4, 0x0#4), (0x0, 0x1), (0x1, 0x2), (0x1, 0x0), (0x2, 0x3), (0x2, 0x0), (0x3, 0x4), (0x3, 0x5), (0x4, 0x4),
       (0x4, 0x5), (0x4, 0x0), (0x5, 0x6), (0x5, 0x7), (0x6, 0x6), (0x6, 0x0), (0x7, 0x7), (0x7, 0x8), (0x7, 0x0),
       (0x8, 0x8), (0x8, 0x0)]

/-- R124, R26: reset gives every block register its value of R26 (a datapath register the value log 2 names) and keeps
the configuration and what is already emitted. -/
def Obligations.ResetRestoresTheBlock : Prop :=
  (∀ s : State, s.configurationLegal = true → s.resetLine = true →
    ∃ t, step s = .next t ∧ t.phase = 0x0#4 ∧ t.lastOutcome = 0x0#4 ∧ t.faultBit = false ∧ t.busy = false
      ∧ t.rxReady = true ∧ t.configuration = s.configuration ∧ t.txLog = s.txLog
      ∧ t.handlers.session = 0x01#8 ∧ t.handlers.grantedLevel = 0x00#8 ∧ t.handlers.lastSeed1 = 0#8
      ∧ t.handlers.lastSeed2 = 0#16)
  ∧ (∀ (c : Configuration) (run : Nat),
      (State.resetWith c run).configuration = c ∧ (State.resetWith c run).status = 0x00#8
      ∧ (State.resetWith c run).phase = 0x0#4)
  ∧ State.reset.cfgFlagId = State.reset.cfgRespId ∧ State.reset.cfgPolicy = 0b00#2
  ∧ (∀ sid : Byte, entryPresent (minEntry State.reset.minParamLen sid) = true ↔
      sid ∈ [0x10#8, 0x11, 0x14, 0x22, 0x23, 0x27])

/-- R15, R17, R13: a configuration with CFG_RESP_ID = CFG_REQ_ID, or with the reserved minimum 7 of a present SID, and a
reserved PHASE, are refused. That a listed entry counts also where an earlier one of its SID hides it is the model's choice
(log 4), and so is that the configuration is looked at before a reset (log 29). -/
def Obligations.IllegalConfigurationsAndPhasesAreRefused : Prop :=
  ∀ s : State,
    (s.cfgRespId = s.cfgReqId → step s = .refused .illegalConfiguration)
    ∧ (∀ sid entry, (sid, entry) ∈ s.minParamLen → 0xF = entry.toNat → step s = .refused .illegalConfiguration)
    ∧ (s.configurationLegal = true → s.resetLine = false → 9 ≤ s.phase.toNat → step s = .refused .reservedPhase)

/-! ## The invariant -/

/-- The invariant holds right after reset. -/
def Obligations.InvariantHoldsAtReset : Prop := Inv State.reset

/-- Every step keeps the invariant: legal register values, a canonical RSP_BUF, a stored message in ENCODE and SEND_*,
TX_OFF and TX_SEQ in step (R13, R19..R23, R90, R109). Reset's zero registers are the model's choice (log 2). -/
def Obligations.StepKeepsTheInvariant : Prop := ∀ s t : State, Inv s → step s = .next t → Inv t

/-- R53, R115: no encoding traps. From a state that meets the invariant a step always answers a next state. -/
def Obligations.BlockNeverStops : Prop := ∀ s : State, Inv s → ∃ t, step s = .next t

/-- R101, R113: while every answer is within R101's bound, STATUS.FAULT stays clear. -/
def Obligations.BoundedAnswersKeepFaultClear : Prop :=
  ∀ s t : State, Safe s → answersBounded s → step s = .next t → Safe t ∧ answersBounded t

/-- R132 (the fairness it names): with a handler answer and enough tx_status answers, a transaction in any phase ends
within 591 steps. -/
def Obligations.EveryTransactionEnds : Prop :=
  ∀ s : State, Inv s → s.resetLine = false → s.phase ≠ 0x0#4 → 1 ≤ s.hpPort.length → 586 ≤ s.txPort.length →
    ∃ n t, n ≤ 591 ∧ runFor n s = some t ∧ t.phase = 0x0#4

/-! ## The handler contract -/

/-- R84, R101: an answer that keeps the handler contract never raises the fault. -/
def Obligations.ContractAnswersNeverFault : Prop :=
  ∀ s : State, runsIn .handler s → nextAnswerAllowed s → s.hpPort ≠ [] →
    ∃ t, step s = .next t ∧ t.phase = 0x5#4 ∧ t.faultBit = s.faultBit

/-- R108: the NRCs the contract lets a handler return, for a request with at least its default minimum of parameters;
0x23 may return any code for a zero ALFID nibble. -/
def Obligations.ContractNrcsAreTheTabled : Prop :=
  ∀ (h h' : HandlerState) (req : Request) (d : Draw) (code : Byte), handlerAllows h req d (.negative code) h' →
    req.sid ∈ servedSids → entryMin (minEntry Config.defaultMinParamLen req.sid) ≤ req.params.length →
    code ∈ handlerNrcs req.sid
    ∨ (req.sid = 0x23#8 ∧ ∃ alfid rest, req.params = alfid :: rest ∧ (alfid.toNat / 16 = 0 ∨ alfid.toNat % 16 = 0))

/-! ## Segmentation -/

/-- R96: the round trip. -/
def Obligations.ReassembleInvertsEncodeMessage : Prop :=
  ∀ m : List Byte, 1 ≤ m.length → m.length ≤ 4095 → reassemble (encodeMessage m) = .ok m

/-- R97: one frame if and only if `|M| <= 7`, else `1 + ceil((|M| - 6) / 7)`. -/
def Obligations.FrameCountIsAsStated : Prop :=
  ∀ m : List Byte, 1 ≤ m.length → m.length ≤ 4095 →
    ((encodeMessage m).length = 1 ↔ m.length ≤ 7)
    ∧ (7 < m.length → (encodeMessage m).length = 1 + (m.length - 6 + 6) / 7)

/-- R90, R91: consecutive frame k carries `N = (k mod 15) + 1` and `M[6 + 7k .. min(12 + 7k, T - 1)]`. -/
def Obligations.ConsecutiveFramesCarryTheMessage : Prop :=
  ∀ (m : List Byte) (k : Nat), 8 ≤ m.length → m.length ≤ 4095 → 6 + 7 * k < m.length →
    (encodeMessage m)[k + 1]? = some (BitVec.ofNat 8 (0x20 + (k % 15 + 1)) :: (m.drop (6 + 7 * k)).take 7)

/-- R86, R93: from ENCODE, the segmenter's phases emit exactly the frames of EncodeMessage(M), in order, and end the
transaction with the outcome in OUT, whenever the transport takes every frame. -/
def Obligations.SegmenterEmitsEncodeMessage : Prop :=
  ∀ (s : State) (m : List Byte) (later : List TxStatus), runsIn .encode s → 1 ≤ m.length →
    m.length = s.rspLen.toNat → s.rspBuf.readBytes 0 m.length = some m →
    s.txPort = List.replicate (encodeMessage m).length .ok ++ later →
    ∃ n t, runFor n s = some t ∧ t.phase = 0x0#4 ∧ t.lastOutcome = s.out.code ∧ t.txPort = later
      ∧ t.faultBit = s.faultBit
      ∧ t.txLog = s.txLog ++ (encodeMessage m).map fun bytes =>
          { frame := { id := s.cfgRespId, data := bytes }, status := .ok }

/-- D22, R114: running the phases from IDLE on an offered frame comes to the transaction as one function: the outcome in
R114's priority (a failed send included), the frames, the handler call, the fault bit, the outside state. -/
def Obligations.PhasesRefineTheTransaction : Prop :=
  ∀ (s : State) (f : Frame) (later : List Frame) (a : HandlerAnswer) (more : List HandlerAnswer) (r : TxnResult),
    runsIn .idle s → s.rxPort = f :: later → f.data.length ≤ 8 → s.hpPort = a :: more →
    r = transaction s.configuration f a.reply → r.frames.length ≤ s.txPort.length →
    ∃ n t, runFor n s = some t ∧ t.phase = 0x0#4 ∧ t.rxPort = later
      ∧ t.lastOutcome =
          (if (delivered s.cfgRespId r.frames s.txPort).all (fun x => x.status = .ok) then r.outcome
           else .txAborted).code
      ∧ t.txLog = s.txLog ++ delivered s.cfgRespId r.frames s.txPort
      ∧ t.txPort = s.txPort.drop (delivered s.cfgRespId r.frames s.txPort).length
      ∧ t.hpLog = s.hpLog ++ r.calls
      ∧ t.hpPort = (if r.calls = [] then s.hpPort else more)
      ∧ t.faultBit = (s.faultBit || decide (r.outcome = .faultPayloadTooLarge))
      ∧ t.handlers = (if r.calls = [] then s.handlers else a.after)

/-- R99: the block's own first frame, fed back on CFG_REQ_ID, is dropped as NOT_SINGLE_FRAME. -/
def Obligations.OwnFirstFrameIsDropped : Prop :=
  ∀ (s : State) (m bytes : List Byte) (later : List Frame), runsIn .idle s → 8 ≤ m.length → m.length ≤ 4095 →
    (encodeMessage m).head? = some bytes → s.rxPort = { id := s.cfgReqId, data := bytes } :: later →
    ∃ t, runFor 3 s = some t ∧ t.phase = 0x0#4 ∧ t.lastOutcome = 0x3#4 ∧ t.txLog = s.txLog ∧ t.hpLog = s.hpLog

/-- R95, D19: Reassemble accepts exactly the frame lists that EncodeMessage produces, and gives their message. -/
def Obligations.ReassembleAcceptsExactlyEncodedMessages : Prop :=
  ∀ (frames : List (List Byte)) (m : List Byte),
    reassemble frames = .ok m ↔ 1 ≤ m.length ∧ m.length ≤ 4095 ∧ frames = encodeMessage m

/-! ## Handlers as functions -/

/-- R100: handlers that keep the contract give the same request, in the same state, the same response and the same
environment afterwards, unless a seed is drawn. -/
def Obligations.RepeatedRequestsGetTheSameResponse : Prop :=
  ∀ (H : HandlerOracle) (s s' : State), KeepsContract H → runsIn .handler s → runsIn .handler s' →
    answeredBy H s → answeredBy H s' → s.handlers = s'.handlers → s.hpRequest = s'.hpRequest →
    (∀ d d', drawn s.handlers s.hpRequest d = drawn s.handlers s.hpRequest d') →
    ∃ t t', step s = .next t ∧ step s' = .next t' ∧ t.handlers = t'.handlers ∧ t.out = t'.out ∧ t.phase = t'.phase
      ∧ t.rspLen = t'.rspLen ∧ ∀ a, a < t.rspLen.toNat → t.rspBuf.read a = t'.rspBuf.read a
end

