-- ==== Sys2Proof/Laws/Decode.lean ====
section
/-! SUPPORT. The fields of the bytes the encoder builds (30_encoding.md R44, R46, R49), one lemma for each field. -/

namespace Sys2Proof

/-- Reading the high part of two joined fields. -/
theorem extract_high {m n : Nat} (a : BitVec m) (b : BitVec n) : (a ++ b).extractLsb' n m = a := by
  apply BitVec.eq_of_getLsbD_eq
  intro i hi
  rw [BitVec.getLsbD_extractLsb', BitVec.getLsbD_append]
  simp [hi]

/-- Reading the low part of two joined fields. -/
theorem extract_low {m n : Nat} (a : BitVec m) (b : BitVec n) : (a ++ b).extractLsb' 0 n = b := by
  apply BitVec.eq_of_getLsbD_eq
  intro i hi
  rw [BitVec.getLsbD_extractLsb', BitVec.getLsbD_append]
  simp [hi]

/-- A word is its two parts, joined. -/
theorem append_extract {m n : Nat} (x : BitVec (m + n)) : x.extractLsb' n m ++ x.extractLsb' 0 n = x := by
  apply BitVec.eq_of_getLsbD_eq
  intro i hi
  rw [BitVec.getLsbD_append, BitVec.getLsbD_extractLsb', BitVec.getLsbD_extractLsb']
  split
  · rename_i h; simp [h]
  · rw [show n + (i - n) = i by omega]
    have : decide (i - n < m) = true := decide_eq_true (by omega)
    simp [this]

@[simp] theorem pciType_pciByte (t n : Nibble) : pciType (pciByte t n) = t := extract_high t n

@[simp] theorem pciNibble_pciByte (t n : Nibble) : pciNibble (pciByte t n) = n := extract_low t n

/-- A byte is its type above its low nibble (R44). -/
theorem pciByte_fields (b : Byte) : pciByte (pciType b) (pciNibble b) = b := append_extract (m := 4) (n := 4) b

@[simp] theorem ffLength_fields (n : Nibble) (t : BitVec 12) :
    ffLength (pciByte n (lengthHigh t)) (lengthLow t) = t := by
  unfold ffLength
  rw [pciNibble_pciByte]
  exact append_extract (m := 4) (n := 8) t

@[simp] theorem lengthHigh_ffLength (b0 b1 : Byte) : lengthHigh (ffLength b0 b1) = pciNibble b0 :=
  extract_high (pciNibble b0) b1

@[simp] theorem lengthLow_ffLength (b0 b1 : Byte) : lengthLow (ffLength b0 b1) = b1 :=
  extract_low (pciNibble b0) b1

/-- A PCI byte as a number (R44). -/
theorem pciByte_eq (t n : Nibble) : pciByte t n = BitVec.ofNat 8 (t.toNat * 16 + n.toNat) := by
  apply BitVec.eq_of_toNat_eq
  have ht := t.isLt
  have hn := n.isLt
  unfold pciByte
  rw [BitVec.toNat_append, Nat.shiftLeft_eq, BitVec.toNat_ofNat, Nat.mod_eq_of_lt (by omega), Nat.mul_comm,
    ← Nat.two_pow_add_eq_or_of_lt hn]

/-- The PCI byte of a single frame (R45). -/
theorem pciByte_single {k : Nat} (h : k ≤ 7) : pciByte 0x0#4 (BitVec.ofNat 4 k) = BitVec.ofNat 8 k := by
  have hk : (BitVec.ofNat 4 k).toNat = k := by rw [BitVec.toNat_ofNat, Nat.mod_eq_of_lt (by omega)]
  rw [pciByte_eq, hk]
  congr 1
  exact Nat.zero_add k

/-- The first byte of a first frame (R46). -/
theorem pciByte_first (t : BitVec 12) : pciByte 0x1#4 (lengthHigh t) = BitVec.ofNat 8 (0x10 + t.toNat / 256) := by
  have := t.isLt
  rw [pciByte_eq]
  congr 1
  simp [lengthHigh, BitVec.extractLsb'_toNat, Nat.shiftRight_eq_div_pow]
  omega

/-- The second byte of a first frame (R46). -/
theorem lengthLow_eq (t : BitVec 12) : lengthLow t = BitVec.ofNat 8 (t.toNat % 256) := by
  apply BitVec.eq_of_toNat_eq
  simp [lengthLow, BitVec.extractLsb'_toNat]

/-- The PCI byte of a consecutive frame (R47). -/
theorem pciByte_consecutive (n : Nibble) : pciByte 0x2#4 n = BitVec.ofNat 8 (0x20 + n.toNat) := by
  rw [pciByte_eq]
  rfl

end Sys2Proof
end

