-- ==== Sys2Proof/Laws/Handlers.lean ====
section
/-! SUPPORT. The handler contract (44_handler_port.md): facts about its parts, and handlers that keep it, so that statements
that assume the contract are about something. -/

namespace Sys2Proof.Machine

/-- The VIN is 17 bytes (R105). -/
@[simp] theorem vinBytes_length (run : Nat) : (vinBytes run).length = 17 := by simp [vinBytes]

/-- The VIN's bytes are ASCII codes (R105). -/
theorem vinBytes_ascii {run : Nat} {b : Byte} (h : b ∈ vinBytes run) : b.toNat < 128 := by
  simp only [vinBytes, List.mem_map] at h
  obtain ⟨i, -, rfl⟩ := h
  have := (Config.vin run i).isLt
  rw [BitVec.toNat_setWidth]
  omega

@[simp] theorem imageBytes_length (run addr size : Nat) : (imageBytes run addr size).length = size := by
  simp [imageBytes]

@[simp] theorem twoBytes_length (v : BitVec 16) : (twoBytes v).length = 2 := rfl

/-- An allowed answer belongs to the same process run (R126). -/
theorem handlerAllows_run {h h' : HandlerState} {req : Request} {d : Draw} {r : Reply}
    (ha : handlerAllows h req d r h') : h'.run = h.run := ha.2.1

/-- A big-endian value of n bytes is below 256^n (R30). -/
theorem bigEndian_lt (bytes : List Byte) : bigEndian bytes < 256 ^ bytes.length := by
  induction bytes with
  | nil => decide
  | cons b more ih =>
    have := b.isLt
    simp only [bigEndian, List.length_cons, Nat.pow_succ]
    have h1 : b.toNat * 256 ^ more.length ≤ 255 * 256 ^ more.length := Nat.mul_le_mul_right _ (by omega)
    omega

/-- A key that matches has the width of its class (R107 step 4). -/
theorem keyMatches_length {h : HandlerState} {key : List Byte} (hk : keyMatches h key = true) :
    key.length = keyWidth h := by
  rw [keyMatches, decide_eq_true_eq] at hk
  subst hk
  unfold seedAndKey keyWidth
  split <;> rfl

/-! ## One way to keep the contract: gates first, nothing open accepted -/

/-- Session 0x27's seed, stored (R107 step 3). -/
def storeSeed (h : HandlerState) (d : Draw) : HandlerState :=
  if h.session = 0x01#8 then
    { h with lastSeed1 := if h.issued01 && h.lastSeed1 ≠ 0 then h.lastSeed1 + 2 else d.seed1, issued01 := true }
  else if h.session = 0x02#8 then { h with lastSeed1 := d.seed1 }
  else if h.session = 0x03#8 then { h with lastSeed2 := d.seed2 }
  else { h with lastSeed2 := d.seed2, prevSeed2 := h.lastSeed2 }

/-- Handler 0x23 (R106). -/
def readMemory (h : HandlerState) (params : List Byte) : Reply :=
  match params with
  | [] => .negative 0x13
  | alfid :: rest =>
    let sizeLen := (pciType alfid).toNat
    let addrLen := (pciNibble alfid).toNat
    let addr := bigEndian (rest.take addrLen)
    let size := bigEndian (rest.drop addrLen)
    if h.grantedLevel ≠ 0x04#8 then .negative 0x33
    else if sizeLen = 0 ∨ addrLen = 0 then .negative 0x31
    else if rest.length ≠ addrLen + sizeLen then .negative 0x13
    else if size = 0 then .negative 0x31
    else if 4094 < size then .negative 0x14
    else if 3 ≤ addrLen then .negative 0x31
    else .positive (imageBytes h.run addr size)

/-- Handler 0x27 (R107). -/
def accessSecurity (h : HandlerState) (params : List Byte) (d : Draw) : HandlerAnswer :=
  if !(oneByteClass h.session || twoByteClass h.session) then { reply := .negative 0x7F, after := h }
  else
    match params with
    | [] => { reply := .negative 0x13, after := h }
    | sub :: key =>
      if sub = 0x01#8 then
        { reply := .positive ((seedAndKey (storeSeed h d)).1 ++ (seedAndKey (storeSeed h d)).2), after := storeSeed h d }
      else if sub = 0x02#8 then
        if noSeed h then { reply := .negative 0x24, after := h }
        else if key.length ≠ keyWidth h then { reply := .negative 0x13, after := h }
        else if keyMatches h key then { reply := .positive [0x02], after := { h with grantedLevel := h.session } }
        else { reply := .negative 0x35, after := h }
      else { reply := .negative 0x12, after := h }

/-- Handler 0x10 (R102). -/
def controlSession (h : HandlerState) (params : List Byte) : HandlerAnswer :=
  match params with
  | [] => { reply := .negative 0x13, after := h }
  | t :: _ =>
    if t ∈ [0x01#8, 0x02, 0x03, 0x04] then
      { reply := .positive [t, 0x00, 0x32, 0x13, 0x88], after := { h with session := t, legacyFlag := false } }
    else { reply := .negative 0x31, after := h }

/-- Handler 0x11 (R103). -/
def resetEcu (h : HandlerState) (params : List Byte) : Reply :=
  match params with
  | [] => .negative 0x13
  | t :: _ =>
    if t = 0x01#8 ∧ h.grantedLevel = 0x00#8 then .negative 0x33
    else if t ∈ [0x01#8, 0x02, 0x03] then .positive [t]
    else .negative 0x31

/-- Handler 0x14 (R104). -/
def clearDiagnostics (h : HandlerState) (params : List Byte) : Reply :=
  if h.grantedLevel.toNat < 3 then .negative 0x33
  else if params.length = 3 then .positive []
  else .negative 0x13

/-- Handler 0x22 (R105). -/
def readIdentifier (h : HandlerState) (params : List Byte) : Reply :=
  match params with
  | hi :: lo :: _ =>
    if h.grantedLevel.toNat < 2 then .negative 0x33
    else if hi = 0xF1#8 ∧ lo = 0x90#8 then .positive (0xF1 :: 0x90 :: vinBytes h.run)
    else .negative 0x31
  | _ => .negative 0x13

/-- All handlers. -/
def strictHandlers : HandlerOracle := fun h req d =>
  if req.sid = 0x10#8 then controlSession h req.params
  else if req.sid = 0x11#8 then { reply := resetEcu h req.params, after := h }
  else if req.sid = 0x14#8 then { reply := clearDiagnostics h req.params, after := h }
  else if req.sid = 0x22#8 then { reply := readIdentifier h req.params, after := h }
  else if req.sid = 0x23#8 then { reply := readMemory h req.params, after := h }
  else if req.sid = 0x27#8 then accessSecurity h req.params d
  else { reply := .negative 0x11, after := h }

theorem controlSession_allowed (h : HandlerState) (params : List Byte) :
    replyBounded (controlSession h params).reply = true ∧ (controlSession h params).after.run = h.run
      ∧ allowsDsc h params (controlSession h params).reply (controlSession h params).after := by
  unfold controlSession allowsDsc
  cases params with
  | nil => exact ⟨rfl, rfl, trivial⟩
  | cons t extra =>
    dsimp only
    split
    · exact ⟨rfl, rfl, .inl ⟨‹_›, rfl, rfl⟩⟩
    · exact ⟨rfl, rfl, .inr (.inl ⟨‹_›, rfl, rfl⟩)⟩

theorem resetEcu_allowed (h : HandlerState) (params : List Byte) :
    replyBounded (resetEcu h params) = true ∧ allowsEr h params (resetEcu h params) h := by
  unfold resetEcu allowsEr
  cases params with
  | nil => exact ⟨rfl, trivial⟩
  | cons t extra =>
    dsimp only
    by_cases hg : t = 0x01#8 ∧ h.grantedLevel = 0x00#8
    · rw [if_pos hg]; exact ⟨rfl, .inr (.inl ⟨hg.1, hg.2, rfl, rfl⟩)⟩
    · rw [if_neg hg]
      split
      · exact ⟨rfl, .inl ⟨‹_›, hg, rfl⟩⟩
      · exact ⟨rfl, .inr (.inr (.inl ⟨‹_›, rfl, rfl⟩))⟩

theorem clearDiagnostics_allowed (h : HandlerState) (params : List Byte) :
    replyBounded (clearDiagnostics h params) = true ∧ allowsCdtci h params (clearDiagnostics h params) h := by
  unfold clearDiagnostics allowsCdtci
  split
  · exact ⟨rfl, rfl, .inl ⟨‹_›, rfl⟩⟩
  · split
    · exact ⟨rfl, rfl, .inr (.inr ⟨by omega, ‹_›, rfl⟩)⟩
    · exact ⟨rfl, rfl, .inr (.inl ⟨‹_›, rfl⟩)⟩

theorem readIdentifier_allowed (h : HandlerState) (params : List Byte) :
    replyBounded (readIdentifier h params) = true ∧ allowsRdbi h params (readIdentifier h params) h := by
  unfold readIdentifier allowsRdbi
  match params with
  | [] => exact ⟨rfl, trivial⟩
  | [_] => exact ⟨rfl, trivial⟩
  | hi :: lo :: extra =>
    dsimp only
    by_cases hg : h.grantedLevel.toNat < 2
    · rw [if_pos hg]; exact ⟨rfl, rfl, .inl ⟨hg, rfl⟩⟩
    · rw [if_neg hg]
      by_cases hid : hi = 0xF1#8 ∧ lo = 0x90#8
      · rw [if_pos hid]
        exact ⟨by simp [replyBounded], rfl, .inr (.inr (.inl ⟨by omega, hid.1, hid.2, rfl⟩))⟩
      · rw [if_neg hid]; exact ⟨rfl, rfl, .inr (.inl ⟨hid, rfl⟩)⟩

theorem storeSeed_issued {h : HandlerState} (d : Draw) (hs : oneByteClass h.session || twoByteClass h.session) :
    seedIssued h d (storeSeed h d) := by
  simp only [oneByteClass, twoByteClass, Bool.or_eq_true, decide_eq_true_eq] at hs
  unfold seedIssued storeSeed
  by_cases h1 : h.session = 0x01#8
  · refine .inl ⟨h1, _, h.prevSeed1, ?_, by simp, by rw [if_pos h1]⟩
    unfold nextSeed01
    split
    · rename_i hi; simp at hi; exact .inr ⟨.inl hi.1, rfl⟩
    · rename_i hi; simp at hi
      refine .inl ⟨?_, rfl⟩
      cases hb : h.issued01
      · exact .inl rfl
      · exact .inr (hi hb)
  · by_cases h2 : h.session = 0x02#8
    · exact .inr (.inl ⟨h2, h.prevSeed1, by simp, by simp [h2]⟩)
    · by_cases h3 : h.session = 0x03#8
      · exact .inr (.inr (.inl ⟨h3, h.prevSeed2, by simp, by simp [h3]⟩))
      · refine .inr (.inr (.inr ⟨?_, by simp [h1, h2, h3]⟩))
        simp_all

theorem storeSeed_run (h : HandlerState) (d : Draw) : (storeSeed h d).run = h.run := by
  unfold storeSeed
  repeat' split
  all_goals rfl

theorem seedAndKey_length (h : HandlerState) : (seedAndKey h).1.length ≤ 2 ∧ (seedAndKey h).2.length ≤ 2 := by
  unfold seedAndKey
  split <;> simp

theorem readMemory_allowed (h : HandlerState) (params : List Byte) :
    replyBounded (readMemory h params) = true ∧ allowsRmba h params (readMemory h params) h := by
  unfold readMemory allowsRmba
  cases params with
  | nil => exact ⟨rfl, trivial⟩
  | cons alfid rest =>
    dsimp only
    split
    · exact ⟨rfl, rfl, .inl ⟨‹_›, rfl⟩⟩
    split
    · exact ⟨rfl, rfl, .inr (.inl ⟨‹_›, _, rfl⟩)⟩
    rename_i hn
    rw [not_or] at hn
    split
    · exact ⟨rfl, rfl, .inr (.inr (.inl ⟨‹_›, rfl⟩))⟩
    rename_i hl
    have hf := And.intro hn.1 (And.intro hn.2 (not_not.mp hl))
    split
    · exact ⟨rfl, rfl, .inr (.inr (.inr (.inl ⟨hf, ‹_›, rfl⟩)))⟩
    split
    · exact ⟨rfl, rfl, .inr (.inr (.inr (.inr (.inl ⟨hf, ‹_›, rfl⟩))))⟩
    have hg : h.grantedLevel = 0x04#8 := not_not.mp ‹_›
    split
    · refine ⟨rfl, rfl, .inr (.inr (.inr (.inr (.inr (.inr ⟨hf, hg, by omega, by omega, ‹_›, .inr ?_⟩)))))⟩
      exact ⟨⟨0x31, by decide, rfl⟩, rfl⟩
    · refine ⟨?_, rfl, .inr (.inr (.inr (.inr (.inr (.inl ⟨hf, hg, by omega, by omega, ?_, rfl⟩)))))⟩
      · simp only [replyBounded, imageBytes_length, decide_eq_true_eq]; omega
      · have := bigEndian_lt (rest.take (pciNibble alfid).toNat)
        have h2 : (rest.take (pciNibble alfid).toNat).length ≤ 2 := by rw [List.length_take]; omega
        have := Nat.pow_le_pow_right (n := 256) (by decide) h2
        omega

theorem accessSecurity_allowed (h : HandlerState) (params : List Byte) (d : Draw) :
    replyBounded (accessSecurity h params d).reply = true ∧ (accessSecurity h params d).after.run = h.run
      ∧ allowsSa h params d (accessSecurity h params d).reply (accessSecurity h params d).after := by
  unfold accessSecurity allowsSa
  by_cases hs : (oneByteClass h.session || twoByteClass h.session) = true
  · cases params with
    | nil => simp [hs, replyBounded]
    | cons sub key =>
      simp only [hs, Bool.not_true, Bool.false_eq_true, if_false]
      split
      · have hl := seedAndKey_length (storeSeed h d)
        refine ⟨?_, storeSeed_run h d, .inl ⟨storeSeed_issued d hs, _, rfl, ?_⟩⟩
        · simp only [replyBounded, List.length_append, decide_eq_true_eq]; omega
        · exact ⟨List.infix_append [] _ _, (List.suffix_append _ _).isInfix⟩
      · split
        · unfold keySent
          repeat' split
          · exact ⟨rfl, rfl, rfl, rfl⟩
          · exact ⟨rfl, rfl, rfl, rfl⟩
          · exact ⟨rfl, rfl, ⟨_, rfl⟩, h.legacyFlag, rfl⟩
          · exact ⟨rfl, rfl, rfl, rfl⟩
        · exact ⟨rfl, rfl, rfl, rfl⟩
  · cases params <;> simp [hs, replyBounded]

/-- The seed stored depends on a draw only where the source lets it (R100). -/
theorem storeSeed_deterministic {h : HandlerState} {req : Request} {d d' : Draw} (hr : requestsSeed h req = true)
    (hd : drawn h req d = drawn h req d') : storeSeed h d = storeSeed h d' := by
  unfold drawn at hd
  unfold storeSeed
  by_cases h1 : h.session = 0x01#8
  · by_cases hi : h.issued01 = true ∧ h.lastSeed1 ≠ 0
    · have hl := hi.2
      simp only [h1, hi.1, if_true, Bool.true_and, decide_eq_true hl]
    · have hc : (!requestsSeed h req || (h.session = 0x01#8 && h.issued01 && h.lastSeed1 ≠ 0)) = false := by
        simp only [hr, h1]
        simpa using hi
      have ho : oneByteClass h.session = true := by simp [oneByteClass, h1]
      rw [hc] at hd
      simp only [ho, if_true, Bool.false_eq_true, if_false, Option.some.injEq] at hd
      simp only [h1, if_true, BitVec.eq_of_toNat_eq hd]
  · by_cases h2 : h.session = 0x02#8
    · simp [hr, h2, oneByteClass] at hd
      simp [h2, BitVec.eq_of_toNat_eq hd]
    · simp [hr, h1, h2, oneByteClass] at hd
      simp [h1, h2, BitVec.eq_of_toNat_eq hd]

theorem accessSecurity_deterministic {h : HandlerState} {req : Request} {d d' : Draw} (hs : req.sid = 0x27#8)
    (hd : drawn h req d = drawn h req d') : accessSecurity h req.params d = accessSecurity h req.params d' := by
  unfold accessSecurity
  split
  · rfl
  · rename_i hc
    match hp : req.params with
    | [] => rfl
    | sub :: key =>
      dsimp only
      split
      · rename_i hsub
        have hc : (oneByteClass h.session || twoByteClass h.session) = true := by rwa [Bool.not_eq_true, Bool.not_eq_false'] at hc
        have hr : requestsSeed h req = true := by
          unfold requestsSeed
          rw [hs, hc, hp, hsub]
          rfl
        rw [storeSeed_deterministic hr hd]
      · rfl

/-- These handlers keep the contract. -/
theorem strictHandlers_keepContract : KeepsContract strictHandlers where
  allowed h req d := by
    unfold handlerAllows strictHandlers
    split_ifs
    · exact controlSession_allowed h _
    · exact ⟨(resetEcu_allowed h _).1, rfl, (resetEcu_allowed h _).2⟩
    · exact ⟨(clearDiagnostics_allowed h _).1, rfl, (clearDiagnostics_allowed h _).2⟩
    · exact ⟨(readIdentifier_allowed h _).1, rfl, (readIdentifier_allowed h _).2⟩
    · exact ⟨(readMemory_allowed h _).1, rfl, (readMemory_allowed h _).2⟩
    · exact accessSecurity_allowed h _ d
    · exact ⟨rfl, rfl, trivial⟩
  deterministic h req d d' hd := by
    unfold strictHandlers
    by_cases h27 : req.sid = 0x27#8
    · rw [accessSecurity_deterministic h27 hd]
    · simp [h27]

end Sys2Proof.Machine
end

