-- ==== Sys2Proof/Laws/Memory.lean ====
section
/-! SUPPORT. RSP_BUF (20_memory.md R27): read after write, and that every memory operation keeps the canonical form. -/

namespace Sys2Proof.Machine

@[simp] theorem Memory.read_nil (a : Nat) : Memory.read [] a = none := rfl

@[simp] theorem Memory.writeBytes_nil (m : Memory) (a : Nat) : m.writeBytes a [] = m := rfl

/-- Nothing below the first possible address is listed. -/
theorem Memory.read_of_lt {m : Memory} {lo a : Nat} (h : m.risesFrom lo = true) (ha : a < lo) : m.read a = none := by
  induction m generalizing lo with
  | nil => rfl
  | cons c m ih =>
    simp only [Memory.risesFrom, Bool.and_eq_true, decide_eq_true_eq] at h
    have hne : ¬ c.1 = a := by omega
    simp only [Memory.read, hne, if_false]
    exact ih h.2 (by omega)

/-- A write to one address leaves the read of every other alone, and gives the written byte there. -/
theorem Memory.read_write (m : Memory) (a b : Nat) (v : Byte) :
    (m.write a v).read b = if a = b then some v else m.read b := by
  induction m with
  | nil => simp [Memory.write, Memory.read]
  | cons c m ih =>
    simp only [Memory.write]
    split
    · simp [Memory.read]
    · split
      · rename_i _ hac
        subst hac
        by_cases hb : c.1 = b <;> simp [Memory.read, hb]
      · rename_i _ hac
        simp only [Memory.read, ih]
        by_cases hcb : c.1 = b
        · subst hcb; simp [hac]
        · simp [hcb]

/-- A run of writes: the bytes written inside the run, the old ones outside. -/
theorem Memory.read_writeBytes (m : Memory) (a b : Nat) (vs : List Byte) :
    (m.writeBytes a vs).read b = if a ≤ b ∧ b < a + vs.length then vs[b - a]? else m.read b := by
  induction vs generalizing m a with
  | nil => simp only [Memory.writeBytes, List.length_nil]; split <;> [omega; rfl]
  | cons v vs ih =>
    simp only [Memory.writeBytes, ih, Memory.read_write, List.length_cons]
    by_cases hab : a = b
    · subst hab; simp
    · by_cases hin : a + 1 ≤ b ∧ b < a + 1 + vs.length
      · have h2 : a ≤ b ∧ b < a + (vs.length + 1) := by omega
        have h3 : b - a = (b - (a + 1)) + 1 := by omega
        rw [if_pos hin, if_pos h2, h3, List.getElem?_cons_succ]
      · have h2 : ¬ (a ≤ b ∧ b < a + (vs.length + 1)) := by omega
        rw [if_neg hin, if_neg h2, if_neg hab]

/-- Outside the stored bytes every address reads as before. -/
theorem Memory.read_writeBytes_outside (m : Memory) {a b : Nat} {vs : List Byte} (h : ¬ (a ≤ b ∧ b < a + vs.length)) :
    (m.writeBytes a vs).read b = m.read b := by rw [Memory.read_writeBytes, if_neg h]

theorem Memory.risesFrom_write {m : Memory} {lo a : Nat} {v : Byte} (h : m.risesFrom lo = true) (ha : lo ≤ a) :
    (m.write a v).risesFrom lo = true := by
  induction m generalizing lo with
  | nil => simpa [Memory.write, Memory.risesFrom] using ha
  | cons c m ih =>
    simp only [Memory.risesFrom, Bool.and_eq_true, decide_eq_true_eq] at h
    simp only [Memory.write]
    split
    · simp only [Memory.risesFrom, Bool.and_eq_true, decide_eq_true_eq]; exact ⟨ha, by omega, h.2⟩
    · split
      · rename_i _ hac; subst hac
        simpa [Memory.risesFrom] using ⟨ha, h.2⟩
      · simp only [Memory.risesFrom, Bool.and_eq_true, decide_eq_true_eq]
        exact ⟨h.1, ih h.2 (by omega)⟩

theorem Memory.all_lt_write {m : Memory} {n a : Nat} {v : Byte} (h : m.all (fun c => decide (c.1 < n)) = true)
    (ha : a < n) : (m.write a v).all (fun c => decide (c.1 < n)) = true := by
  induction m with
  | nil => simpa [Memory.write] using ha
  | cons c m ih =>
    simp only [List.all_cons, Bool.and_eq_true, decide_eq_true_eq] at h
    simp only [Memory.write]
    split
    · simp only [List.all_cons, Bool.and_eq_true, decide_eq_true_eq]; exact ⟨ha, h.1, h.2⟩
    · split
      · simp only [List.all_cons, Bool.and_eq_true, decide_eq_true_eq]; exact ⟨ha, h.2⟩
      · simp only [List.all_cons, Bool.and_eq_true, decide_eq_true_eq]; exact ⟨h.1, ih h.2⟩

/-- A byte write inside RSP_BUF keeps the canonical form. -/
theorem Memory.wf_write {m : Memory} {a : Nat} {v : Byte} (h : m.wf = true) (ha : a < 4095) : (m.write a v).wf = true := by
  simp only [Memory.wf, Bool.and_eq_true, Config.maxMessage] at h ⊢
  exact ⟨Memory.risesFrom_write h.1 (Nat.zero_le a), Memory.all_lt_write h.2 ha⟩

/-- So does a run of writes. -/
theorem Memory.wf_writeBytes {m : Memory} {a : Nat} {vs : List Byte} (h : m.wf = true) (ha : a + vs.length ≤ 4095) :
    (m.writeBytes a vs).wf = true := by
  induction vs generalizing m a with
  | nil => exact h
  | cons v vs ih =>
    simp only [List.length_cons] at ha
    exact ih (Memory.wf_write h (by omega)) (by omega)

/-- Reset's memory is canonical. -/
theorem reset_rspBuf_wf : State.reset.rspBuf.wf = true := by decide

/-- Two canonical memories that read alike everywhere are equal: equal memories are equal data. -/
theorem Memory.ext_of_risesFrom {m n : Memory} {lo : Nat} (hm : m.risesFrom lo = true) (hn : n.risesFrom lo = true)
    (h : ∀ a, m.read a = n.read a) : m = n := by
  induction m generalizing n lo with
  | nil =>
    cases n with
    | nil => rfl
    | cons c n => have := h c.1; simp [Memory.read] at this
  | cons c m ih =>
    cases n with
    | nil => have := h c.1; simp [Memory.read] at this
    | cons d n =>
      obtain ⟨c1, c2⟩ := c
      obtain ⟨d1, d2⟩ := d
      simp only [Memory.risesFrom, Bool.and_eq_true, decide_eq_true_eq] at hm hn
      have hcd : c1 = d1 := by
        rcases Nat.lt_trichotomy c1 d1 with hlt | heq | hgt
        · have := h c1
          have hne : ¬ d1 = c1 := by omega
          rw [Memory.read, if_pos rfl, Memory.read, if_neg hne, Memory.read_of_lt hn.2 (by omega)] at this
          cases this
        · exact heq
        · have := h d1
          have hne : ¬ c1 = d1 := by omega
          rw [Memory.read, if_neg hne, Memory.read_of_lt hm.2 (by omega), Memory.read, if_pos rfl] at this
          cases this
      subst hcd
      have hv : c2 = d2 := by
        have := h c1
        rw [Memory.read, if_pos rfl, Memory.read, if_pos rfl] at this
        exact Option.some.inj this
      subst hv
      have : m = n := ih hm.2 hn.2 fun a => by
        by_cases ha : c1 = a
        · subst ha
          rw [Memory.read_of_lt hm.2 (by omega), Memory.read_of_lt hn.2 (by omega)]
        · have := h a
          simpa only [Memory.read, ha, if_false] using this
      rw [this]

/-- Reading back what a run of reads finds, byte by byte. -/
theorem Memory.readBytes_spec {m : Memory} {a n : Nat} {bs : List Byte} (h : m.readBytes a n = some bs) :
    bs.length = n ∧ ∀ i, i < n → m.read (a + i) = bs[i]? := by
  induction n generalizing a bs with
  | zero => cases h; simp
  | succ n ih =>
    simp only [Memory.readBytes] at h
    split at h
    · rename_i b more hb hmore
      cases h
      obtain ⟨hl, hr⟩ := ih hmore
      refine ⟨by simp [hl], fun i hi => ?_⟩
      cases i with
      | zero => simpa using hb
      | succ i => rw [List.getElem?_cons_succ, ← hr i (by omega)]; congr 1; omega
    · cases h

/-- A run of reads succeeds where every byte of it holds a value. -/
theorem Memory.readBytes_isSome {m : Memory} {a n : Nat} (h : ∀ i, i < n → m.read (a + i) ≠ none) :
    ∃ bs, m.readBytes a n = some bs := by
  induction n generalizing a with
  | zero => exact ⟨[], rfl⟩
  | succ n ih =>
    obtain ⟨b, hb⟩ := Option.ne_none_iff_exists'.mp (h 0 (by omega))
    obtain ⟨more, hmore⟩ := ih (a := a + 1) fun i hi => by
      have := h (i + 1) (by omega)
      rwa [show a + 1 + i = a + (i + 1) by omega]
    exact ⟨b :: more, by rw [Nat.add_zero] at hb; simp [Memory.readBytes, hb, hmore]⟩

end Sys2Proof.Machine
end

