-- ==== Sys2Proof/Laws/Operands.lean ====
section
/-! SUPPORT. The register files read back what was loaded (10_state.md R19, R20), and what the phases fetch. -/

namespace Sys2Proof.Machine

/-- RX_DATA[0 .. |d|-1] reads back the loaded bytes (R56). -/
theorem take_loadRxData (d : List Byte) (old : Vector Byte 8) (h : d.length ≤ 8) :
    (loadRxData d old).toList.take d.length = d := by
  apply List.ext_getElem
  · simp [h]
  · intro i h1 h2
    simp [loadRxData]
    match i, h2 with
    | 0, h2 | 1, h2 | 2, h2 | 3, h2 | 4, h2 | 5, h2 | 6, h2 | 7, h2 => simp [h2]
    | n + 8, h2 => omega

/-- REQ_PARAM[0 .. |d|-1] reads back the loaded bytes (R64). -/
theorem take_loadReqParam (d : List Byte) (old : Vector Byte 6) (h : d.length ≤ 6) :
    (loadReqParam d old).toList.take d.length = d := by
  apply List.ext_getElem
  · simp [h]
  · intro i h1 h2
    simp [loadReqParam]
    match i, h2 with
    | 0, h2 | 1, h2 | 2, h2 | 3, h2 | 4, h2 | 5, h2 => simp [h2]
    | n + 6, h2 => omega

/-- As many received bytes as RX_LEN says (R19). -/
theorem rxBytes_length {s : State} (h : s.rxLen.toNat ≤ 8) : s.rxBytes.length = s.rxLen.toNat := by
  simp [State.rxBytes, h]

/-- As many parameters as REQ_NPARAM says (R20). -/
theorem reqParams_length {s : State} (h : s.reqNParam.toNat ≤ 6) : s.reqParams.length = s.reqNParam.toNat := by
  simp [State.reqParams, h]

/-- A request frame decodes to the row of its SID with all its parameters (R51, R55). -/
theorem decode_singleFrame (sid : Byte) {ps : List Byte} (h : ps.length ≤ 6) :
    decode .dispatch (singleFrame sid ps) = .ok (decodeService sid ps) := by
  simp [decode, decodeDispatch, singleFrame, paramCount]
  rw [if_neg (by omega), Nat.mod_eq_of_lt (by omega)]
  simp

/-- The first bytes of a run that reads as `bs`. -/
theorem Memory.readBytes_take {m : Memory} {a n k : Nat} {bs : List Byte} (h : m.readBytes a n = some bs) (hk : k ≤ n) :
    m.readBytes a k = some (bs.take k) := by
  induction n generalizing a k bs with
  | zero => simp [show k = 0 by omega, Memory.readBytes]
  | succ n ih =>
    simp only [Memory.readBytes] at h
    split at h
    · rename_i b more hb hm
      cases h
      cases k with
      | zero => simp [Memory.readBytes]
      | succ k => simp [Memory.readBytes, hb, ih hm (by omega : k ≤ n)]
    · cases h

/-- The bytes from index `k` on of a run that reads as `bs`. -/
theorem Memory.readBytes_drop {m : Memory} {a n k : Nat} {bs : List Byte} (h : m.readBytes a n = some bs) (hk : k ≤ n) :
    m.readBytes (a + k) (n - k) = some (bs.drop k) := by
  induction k generalizing a n bs with
  | zero => simpa using h
  | succ k ih =>
    cases n with
    | zero => omega
    | succ n =>
      simp only [Memory.readBytes] at h
      split at h
      · rename_i b more hb hm
        cases h
        have := ih hm (by omega : k ≤ n)
        rw [show a + (k + 1) = a + 1 + k by omega, show n + 1 - (k + 1) = n - k by omega]
        simpa using this
      · cases h

/-- MemRead inside a stored message (R27). -/
theorem memRead_message {s : State} {m : List Byte} (h : s.rspBuf.readBytes 0 m.length = some m)
    (hl : m.length = s.rspLen.toNat) {a n : Nat} (han : a + n ≤ m.length) :
    memRead a n s = .ok ((m.drop a).take n) := by
  have h1 := Memory.readBytes_drop h (by omega : a ≤ m.length)
  have h2 := Memory.readBytes_take h1 (by omega : n ≤ m.length - a)
  have := s.rspLen.isLt
  simp only [Nat.zero_add] at h2
  simp [memRead, h2, show ¬ 4095 < a + n by omega, show ¬ s.rspLen.toNat < a + n by omega]

/-- What SEND_SF fetches from a stored message (R87). -/
theorem fetchSingle_eq {s : State} {m : List Byte} (h : s.rspBuf.readBytes 0 m.length = some m)
    (hl : m.length = s.rspLen.toNat) : fetchSingle s = .ok (BitVec.ofNat 8 m.length :: m) := by
  have hw : BitVec.setWidth 8 s.rspLen = BitVec.ofNat 8 m.length := by
    apply BitVec.eq_of_toNat_eq
    simp [hl]
  simp [fetchSingle, ← hl, memRead_message h hl (a := 0) (n := m.length) (by omega), hw]

/-- What SEND_FF fetches from a stored message (R88). -/
theorem fetchFirst_eq {s : State} {m : List Byte} (h : s.rspBuf.readBytes 0 m.length = some m)
    (hl : m.length = s.rspLen.toNat) (h6 : 6 ≤ m.length) :
    fetchFirst s
      = .ok (BitVec.ofNat 8 (0x10 + m.length / 256) :: BitVec.ofNat 8 (m.length % 256) :: m.take 6) := by
  have hr := memRead_message h hl (a := 0) (n := 6) (by omega)
  simp only [fetchFirst, hr, pciByte_first, lengthLow_eq, hl]
  rfl

/-- What SEND_CF fetches from a stored message (R89). -/
theorem fetchConsecutive_eq {s : State} {m : List Byte} (h : s.rspBuf.readBytes 0 m.length = some m)
    (hl : m.length = s.rspLen.toNat) (ho : s.txOff.toNat ≤ m.length) :
    fetchConsecutive s = .ok (BitVec.ofNat 8 (0x20 + s.txSeq.toNat) :: (m.drop s.txOff.toNat).take 7) := by
  have hr := memRead_message h hl (a := s.txOff.toNat) (n := min 7 (m.length - s.txOff.toNat)) (by omega)
  simp only [fetchConsecutive, ← hl, hr, pciByte_consecutive]
  congr 2
  rw [show m.length - s.txOff.toNat = (m.drop s.txOff.toNat).length by simp, ← List.take_eq_take_min]

end Sys2Proof.Machine
end

