-- ==== Sys2Proof/Laws/State.lean ====
section
/-! SUPPORT. One lemma for each field of State and each register write: what the field holds after it. -/

namespace Sys2Proof.Machine

@[simp] theorem setPhase_phase (p : Phase) (s : State) : (s.setPhase p).phase = p.code := rfl
@[simp] theorem setPhase_cfgReqId (p : Phase) (s : State) : (s.setPhase p).cfgReqId = s.cfgReqId := rfl
@[simp] theorem setPhase_cfgRespId (p : Phase) (s : State) : (s.setPhase p).cfgRespId = s.cfgRespId := rfl
@[simp] theorem setPhase_cfgFlagId (p : Phase) (s : State) : (s.setPhase p).cfgFlagId = s.cfgFlagId := rfl
@[simp] theorem setPhase_minParamLen (p : Phase) (s : State) : (s.setPhase p).minParamLen = s.minParamLen := rfl
@[simp] theorem setPhase_cfgPolicy (p : Phase) (s : State) : (s.setPhase p).cfgPolicy = s.cfgPolicy := rfl
@[simp] theorem setPhase_rxId (p : Phase) (s : State) : (s.setPhase p).rxId = s.rxId := rfl
@[simp] theorem setPhase_rxLen (p : Phase) (s : State) : (s.setPhase p).rxLen = s.rxLen := rfl
@[simp] theorem setPhase_rxData (p : Phase) (s : State) : (s.setPhase p).rxData = s.rxData := rfl
@[simp] theorem setPhase_reqSid (p : Phase) (s : State) : (s.setPhase p).reqSid = s.reqSid := rfl
@[simp] theorem setPhase_reqNParam (p : Phase) (s : State) : (s.setPhase p).reqNParam = s.reqNParam := rfl
@[simp] theorem setPhase_reqParam (p : Phase) (s : State) : (s.setPhase p).reqParam = s.reqParam := rfl
@[simp] theorem setPhase_rspLen (p : Phase) (s : State) : (s.setPhase p).rspLen = s.rspLen := rfl
@[simp] theorem setPhase_rspBuf (p : Phase) (s : State) : (s.setPhase p).rspBuf = s.rspBuf := rfl
@[simp] theorem setPhase_txOff (p : Phase) (s : State) : (s.setPhase p).txOff = s.txOff := rfl
@[simp] theorem setPhase_txSeq (p : Phase) (s : State) : (s.setPhase p).txSeq = s.txSeq := rfl
@[simp] theorem setPhase_lastOutcome (p : Phase) (s : State) : (s.setPhase p).lastOutcome = s.lastOutcome := rfl
@[simp] theorem setPhase_faultBit (p : Phase) (s : State) : (s.setPhase p).faultBit = s.faultBit := rfl
@[simp] theorem setPhase_out (p : Phase) (s : State) : (s.setPhase p).out = s.out := rfl
@[simp] theorem setPhase_rxPort (p : Phase) (s : State) : (s.setPhase p).rxPort = s.rxPort := rfl
@[simp] theorem setPhase_hpPort (p : Phase) (s : State) : (s.setPhase p).hpPort = s.hpPort := rfl
@[simp] theorem setPhase_txPort (p : Phase) (s : State) : (s.setPhase p).txPort = s.txPort := rfl
@[simp] theorem setPhase_resetLine (p : Phase) (s : State) : (s.setPhase p).resetLine = s.resetLine := rfl
@[simp] theorem setPhase_txLog (p : Phase) (s : State) : (s.setPhase p).txLog = s.txLog := rfl
@[simp] theorem setPhase_hpLog (p : Phase) (s : State) : (s.setPhase p).hpLog = s.hpLog := rfl
@[simp] theorem setPhase_handlers (p : Phase) (s : State) : (s.setPhase p).handlers = s.handlers := rfl

@[simp] theorem setOut_phase (o : TxnOutcome) (s : State) : (s.setOut o).phase = s.phase := rfl
@[simp] theorem setOut_cfgReqId (o : TxnOutcome) (s : State) : (s.setOut o).cfgReqId = s.cfgReqId := rfl
@[simp] theorem setOut_cfgRespId (o : TxnOutcome) (s : State) : (s.setOut o).cfgRespId = s.cfgRespId := rfl
@[simp] theorem setOut_cfgFlagId (o : TxnOutcome) (s : State) : (s.setOut o).cfgFlagId = s.cfgFlagId := rfl
@[simp] theorem setOut_minParamLen (o : TxnOutcome) (s : State) : (s.setOut o).minParamLen = s.minParamLen := rfl
@[simp] theorem setOut_cfgPolicy (o : TxnOutcome) (s : State) : (s.setOut o).cfgPolicy = s.cfgPolicy := rfl
@[simp] theorem setOut_rxId (o : TxnOutcome) (s : State) : (s.setOut o).rxId = s.rxId := rfl
@[simp] theorem setOut_rxLen (o : TxnOutcome) (s : State) : (s.setOut o).rxLen = s.rxLen := rfl
@[simp] theorem setOut_rxData (o : TxnOutcome) (s : State) : (s.setOut o).rxData = s.rxData := rfl
@[simp] theorem setOut_reqSid (o : TxnOutcome) (s : State) : (s.setOut o).reqSid = s.reqSid := rfl
@[simp] theorem setOut_reqNParam (o : TxnOutcome) (s : State) : (s.setOut o).reqNParam = s.reqNParam := rfl
@[simp] theorem setOut_reqParam (o : TxnOutcome) (s : State) : (s.setOut o).reqParam = s.reqParam := rfl
@[simp] theorem setOut_rspLen (o : TxnOutcome) (s : State) : (s.setOut o).rspLen = s.rspLen := rfl
@[simp] theorem setOut_rspBuf (o : TxnOutcome) (s : State) : (s.setOut o).rspBuf = s.rspBuf := rfl
@[simp] theorem setOut_txOff (o : TxnOutcome) (s : State) : (s.setOut o).txOff = s.txOff := rfl
@[simp] theorem setOut_txSeq (o : TxnOutcome) (s : State) : (s.setOut o).txSeq = s.txSeq := rfl
@[simp] theorem setOut_lastOutcome (o : TxnOutcome) (s : State) : (s.setOut o).lastOutcome = s.lastOutcome := rfl
@[simp] theorem setOut_faultBit (o : TxnOutcome) (s : State) : (s.setOut o).faultBit = s.faultBit := rfl
@[simp] theorem setOut_out (o : TxnOutcome) (s : State) : (s.setOut o).out = o := rfl
@[simp] theorem setOut_rxPort (o : TxnOutcome) (s : State) : (s.setOut o).rxPort = s.rxPort := rfl
@[simp] theorem setOut_hpPort (o : TxnOutcome) (s : State) : (s.setOut o).hpPort = s.hpPort := rfl
@[simp] theorem setOut_txPort (o : TxnOutcome) (s : State) : (s.setOut o).txPort = s.txPort := rfl
@[simp] theorem setOut_resetLine (o : TxnOutcome) (s : State) : (s.setOut o).resetLine = s.resetLine := rfl
@[simp] theorem setOut_txLog (o : TxnOutcome) (s : State) : (s.setOut o).txLog = s.txLog := rfl
@[simp] theorem setOut_hpLog (o : TxnOutcome) (s : State) : (s.setOut o).hpLog = s.hpLog := rfl
@[simp] theorem setOut_handlers (o : TxnOutcome) (s : State) : (s.setOut o).handlers = s.handlers := rfl

@[simp] theorem setFault_phase (s : State) : s.setFault.phase = s.phase := rfl
@[simp] theorem setFault_cfgReqId (s : State) : s.setFault.cfgReqId = s.cfgReqId := rfl
@[simp] theorem setFault_cfgRespId (s : State) : s.setFault.cfgRespId = s.cfgRespId := rfl
@[simp] theorem setFault_cfgFlagId (s : State) : s.setFault.cfgFlagId = s.cfgFlagId := rfl
@[simp] theorem setFault_minParamLen (s : State) : s.setFault.minParamLen = s.minParamLen := rfl
@[simp] theorem setFault_cfgPolicy (s : State) : s.setFault.cfgPolicy = s.cfgPolicy := rfl
@[simp] theorem setFault_rxId (s : State) : s.setFault.rxId = s.rxId := rfl
@[simp] theorem setFault_rxLen (s : State) : s.setFault.rxLen = s.rxLen := rfl
@[simp] theorem setFault_rxData (s : State) : s.setFault.rxData = s.rxData := rfl
@[simp] theorem setFault_reqSid (s : State) : s.setFault.reqSid = s.reqSid := rfl
@[simp] theorem setFault_reqNParam (s : State) : s.setFault.reqNParam = s.reqNParam := rfl
@[simp] theorem setFault_reqParam (s : State) : s.setFault.reqParam = s.reqParam := rfl
@[simp] theorem setFault_rspLen (s : State) : s.setFault.rspLen = s.rspLen := rfl
@[simp] theorem setFault_rspBuf (s : State) : s.setFault.rspBuf = s.rspBuf := rfl
@[simp] theorem setFault_txOff (s : State) : s.setFault.txOff = s.txOff := rfl
@[simp] theorem setFault_txSeq (s : State) : s.setFault.txSeq = s.txSeq := rfl
@[simp] theorem setFault_lastOutcome (s : State) : s.setFault.lastOutcome = s.lastOutcome := rfl
@[simp] theorem setFault_faultBit (s : State) : s.setFault.faultBit = true := rfl
@[simp] theorem setFault_out (s : State) : s.setFault.out = s.out := rfl
@[simp] theorem setFault_rxPort (s : State) : s.setFault.rxPort = s.rxPort := rfl
@[simp] theorem setFault_hpPort (s : State) : s.setFault.hpPort = s.hpPort := rfl
@[simp] theorem setFault_txPort (s : State) : s.setFault.txPort = s.txPort := rfl
@[simp] theorem setFault_resetLine (s : State) : s.setFault.resetLine = s.resetLine := rfl
@[simp] theorem setFault_txLog (s : State) : s.setFault.txLog = s.txLog := rfl
@[simp] theorem setFault_hpLog (s : State) : s.setFault.hpLog = s.hpLog := rfl
@[simp] theorem setFault_handlers (s : State) : s.setFault.handlers = s.handlers := rfl

@[simp] theorem latchFrame_phase (f : Frame) (s : State) : (s.latchFrame f).phase = s.phase := rfl
@[simp] theorem latchFrame_cfgReqId (f : Frame) (s : State) : (s.latchFrame f).cfgReqId = s.cfgReqId := rfl
@[simp] theorem latchFrame_cfgRespId (f : Frame) (s : State) : (s.latchFrame f).cfgRespId = s.cfgRespId := rfl
@[simp] theorem latchFrame_cfgFlagId (f : Frame) (s : State) : (s.latchFrame f).cfgFlagId = s.cfgFlagId := rfl
@[simp] theorem latchFrame_minParamLen (f : Frame) (s : State) : (s.latchFrame f).minParamLen = s.minParamLen := rfl
@[simp] theorem latchFrame_cfgPolicy (f : Frame) (s : State) : (s.latchFrame f).cfgPolicy = s.cfgPolicy := rfl
@[simp] theorem latchFrame_rxId (f : Frame) (s : State) : (s.latchFrame f).rxId = f.id := rfl
@[simp] theorem latchFrame_rxLen (f : Frame) (s : State) : (s.latchFrame f).rxLen = BitVec.ofNat 4 f.data.length := rfl
@[simp] theorem latchFrame_rxData (f : Frame) (s : State) : (s.latchFrame f).rxData = loadRxData f.data s.rxData := rfl
@[simp] theorem latchFrame_reqSid (f : Frame) (s : State) : (s.latchFrame f).reqSid = s.reqSid := rfl
@[simp] theorem latchFrame_reqNParam (f : Frame) (s : State) : (s.latchFrame f).reqNParam = s.reqNParam := rfl
@[simp] theorem latchFrame_reqParam (f : Frame) (s : State) : (s.latchFrame f).reqParam = s.reqParam := rfl
@[simp] theorem latchFrame_rspLen (f : Frame) (s : State) : (s.latchFrame f).rspLen = s.rspLen := rfl
@[simp] theorem latchFrame_rspBuf (f : Frame) (s : State) : (s.latchFrame f).rspBuf = s.rspBuf := rfl
@[simp] theorem latchFrame_txOff (f : Frame) (s : State) : (s.latchFrame f).txOff = s.txOff := rfl
@[simp] theorem latchFrame_txSeq (f : Frame) (s : State) : (s.latchFrame f).txSeq = s.txSeq := rfl
@[simp] theorem latchFrame_lastOutcome (f : Frame) (s : State) : (s.latchFrame f).lastOutcome = s.lastOutcome := rfl
@[simp] theorem latchFrame_faultBit (f : Frame) (s : State) : (s.latchFrame f).faultBit = s.faultBit := rfl
@[simp] theorem latchFrame_out (f : Frame) (s : State) : (s.latchFrame f).out = s.out := rfl
@[simp] theorem latchFrame_rxPort (f : Frame) (s : State) : (s.latchFrame f).rxPort = s.rxPort := rfl
@[simp] theorem latchFrame_hpPort (f : Frame) (s : State) : (s.latchFrame f).hpPort = s.hpPort := rfl
@[simp] theorem latchFrame_txPort (f : Frame) (s : State) : (s.latchFrame f).txPort = s.txPort := rfl
@[simp] theorem latchFrame_resetLine (f : Frame) (s : State) : (s.latchFrame f).resetLine = s.resetLine := rfl
@[simp] theorem latchFrame_txLog (f : Frame) (s : State) : (s.latchFrame f).txLog = s.txLog := rfl
@[simp] theorem latchFrame_hpLog (f : Frame) (s : State) : (s.latchFrame f).hpLog = s.hpLog := rfl
@[simp] theorem latchFrame_handlers (f : Frame) (s : State) : (s.latchFrame f).handlers = s.handlers := rfl

@[simp] theorem latchRequest_phase (sid : Byte) (params : List Byte) (s : State) : (s.latchRequest sid params).phase = s.phase := rfl
@[simp] theorem latchRequest_cfgReqId (sid : Byte) (params : List Byte) (s : State) : (s.latchRequest sid params).cfgReqId = s.cfgReqId := rfl
@[simp] theorem latchRequest_cfgRespId (sid : Byte) (params : List Byte) (s : State) : (s.latchRequest sid params).cfgRespId = s.cfgRespId := rfl
@[simp] theorem latchRequest_cfgFlagId (sid : Byte) (params : List Byte) (s : State) : (s.latchRequest sid params).cfgFlagId = s.cfgFlagId := rfl
@[simp] theorem latchRequest_minParamLen (sid : Byte) (params : List Byte) (s : State) : (s.latchRequest sid params).minParamLen = s.minParamLen := rfl
@[simp] theorem latchRequest_cfgPolicy (sid : Byte) (params : List Byte) (s : State) : (s.latchRequest sid params).cfgPolicy = s.cfgPolicy := rfl
@[simp] theorem latchRequest_rxId (sid : Byte) (params : List Byte) (s : State) : (s.latchRequest sid params).rxId = s.rxId := rfl
@[simp] theorem latchRequest_rxLen (sid : Byte) (params : List Byte) (s : State) : (s.latchRequest sid params).rxLen = s.rxLen := rfl
@[simp] theorem latchRequest_rxData (sid : Byte) (params : List Byte) (s : State) : (s.latchRequest sid params).rxData = s.rxData := rfl
@[simp] theorem latchRequest_reqSid (sid : Byte) (params : List Byte) (s : State) : (s.latchRequest sid params).reqSid = sid := rfl
@[simp] theorem latchRequest_reqNParam (sid : Byte) (params : List Byte) (s : State) : (s.latchRequest sid params).reqNParam = BitVec.ofNat 3 params.length := rfl
@[simp] theorem latchRequest_reqParam (sid : Byte) (params : List Byte) (s : State) : (s.latchRequest sid params).reqParam = loadReqParam params s.reqParam := rfl
@[simp] theorem latchRequest_rspLen (sid : Byte) (params : List Byte) (s : State) : (s.latchRequest sid params).rspLen = s.rspLen := rfl
@[simp] theorem latchRequest_rspBuf (sid : Byte) (params : List Byte) (s : State) : (s.latchRequest sid params).rspBuf = s.rspBuf := rfl
@[simp] theorem latchRequest_txOff (sid : Byte) (params : List Byte) (s : State) : (s.latchRequest sid params).txOff = s.txOff := rfl
@[simp] theorem latchRequest_txSeq (sid : Byte) (params : List Byte) (s : State) : (s.latchRequest sid params).txSeq = s.txSeq := rfl
@[simp] theorem latchRequest_lastOutcome (sid : Byte) (params : List Byte) (s : State) : (s.latchRequest sid params).lastOutcome = s.lastOutcome := rfl
@[simp] theorem latchRequest_faultBit (sid : Byte) (params : List Byte) (s : State) : (s.latchRequest sid params).faultBit = s.faultBit := rfl
@[simp] theorem latchRequest_out (sid : Byte) (params : List Byte) (s : State) : (s.latchRequest sid params).out = s.out := rfl
@[simp] theorem latchRequest_rxPort (sid : Byte) (params : List Byte) (s : State) : (s.latchRequest sid params).rxPort = s.rxPort := rfl
@[simp] theorem latchRequest_hpPort (sid : Byte) (params : List Byte) (s : State) : (s.latchRequest sid params).hpPort = s.hpPort := rfl
@[simp] theorem latchRequest_txPort (sid : Byte) (params : List Byte) (s : State) : (s.latchRequest sid params).txPort = s.txPort := rfl
@[simp] theorem latchRequest_resetLine (sid : Byte) (params : List Byte) (s : State) : (s.latchRequest sid params).resetLine = s.resetLine := rfl
@[simp] theorem latchRequest_txLog (sid : Byte) (params : List Byte) (s : State) : (s.latchRequest sid params).txLog = s.txLog := rfl
@[simp] theorem latchRequest_hpLog (sid : Byte) (params : List Byte) (s : State) : (s.latchRequest sid params).hpLog = s.hpLog := rfl
@[simp] theorem latchRequest_handlers (sid : Byte) (params : List Byte) (s : State) : (s.latchRequest sid params).handlers = s.handlers := rfl

@[simp] theorem setRspLen_phase (n : Nat) (s : State) : (s.setRspLen n).phase = s.phase := rfl
@[simp] theorem setRspLen_cfgReqId (n : Nat) (s : State) : (s.setRspLen n).cfgReqId = s.cfgReqId := rfl
@[simp] theorem setRspLen_cfgRespId (n : Nat) (s : State) : (s.setRspLen n).cfgRespId = s.cfgRespId := rfl
@[simp] theorem setRspLen_cfgFlagId (n : Nat) (s : State) : (s.setRspLen n).cfgFlagId = s.cfgFlagId := rfl
@[simp] theorem setRspLen_minParamLen (n : Nat) (s : State) : (s.setRspLen n).minParamLen = s.minParamLen := rfl
@[simp] theorem setRspLen_cfgPolicy (n : Nat) (s : State) : (s.setRspLen n).cfgPolicy = s.cfgPolicy := rfl
@[simp] theorem setRspLen_rxId (n : Nat) (s : State) : (s.setRspLen n).rxId = s.rxId := rfl
@[simp] theorem setRspLen_rxLen (n : Nat) (s : State) : (s.setRspLen n).rxLen = s.rxLen := rfl
@[simp] theorem setRspLen_rxData (n : Nat) (s : State) : (s.setRspLen n).rxData = s.rxData := rfl
@[simp] theorem setRspLen_reqSid (n : Nat) (s : State) : (s.setRspLen n).reqSid = s.reqSid := rfl
@[simp] theorem setRspLen_reqNParam (n : Nat) (s : State) : (s.setRspLen n).reqNParam = s.reqNParam := rfl
@[simp] theorem setRspLen_reqParam (n : Nat) (s : State) : (s.setRspLen n).reqParam = s.reqParam := rfl
@[simp] theorem setRspLen_rspLen (n : Nat) (s : State) : (s.setRspLen n).rspLen = BitVec.ofNat 12 n := rfl
@[simp] theorem setRspLen_rspBuf (n : Nat) (s : State) : (s.setRspLen n).rspBuf = s.rspBuf := rfl
@[simp] theorem setRspLen_txOff (n : Nat) (s : State) : (s.setRspLen n).txOff = s.txOff := rfl
@[simp] theorem setRspLen_txSeq (n : Nat) (s : State) : (s.setRspLen n).txSeq = s.txSeq := rfl
@[simp] theorem setRspLen_lastOutcome (n : Nat) (s : State) : (s.setRspLen n).lastOutcome = s.lastOutcome := rfl
@[simp] theorem setRspLen_faultBit (n : Nat) (s : State) : (s.setRspLen n).faultBit = s.faultBit := rfl
@[simp] theorem setRspLen_out (n : Nat) (s : State) : (s.setRspLen n).out = s.out := rfl
@[simp] theorem setRspLen_rxPort (n : Nat) (s : State) : (s.setRspLen n).rxPort = s.rxPort := rfl
@[simp] theorem setRspLen_hpPort (n : Nat) (s : State) : (s.setRspLen n).hpPort = s.hpPort := rfl
@[simp] theorem setRspLen_txPort (n : Nat) (s : State) : (s.setRspLen n).txPort = s.txPort := rfl
@[simp] theorem setRspLen_resetLine (n : Nat) (s : State) : (s.setRspLen n).resetLine = s.resetLine := rfl
@[simp] theorem setRspLen_txLog (n : Nat) (s : State) : (s.setRspLen n).txLog = s.txLog := rfl
@[simp] theorem setRspLen_hpLog (n : Nat) (s : State) : (s.setRspLen n).hpLog = s.hpLog := rfl
@[simp] theorem setRspLen_handlers (n : Nat) (s : State) : (s.setRspLen n).handlers = s.handlers := rfl

@[simp] theorem setTx_phase (off : BitVec 12) (seq : BitVec 4) (s : State) : (s.setTx off seq).phase = s.phase := rfl
@[simp] theorem setTx_cfgReqId (off : BitVec 12) (seq : BitVec 4) (s : State) : (s.setTx off seq).cfgReqId = s.cfgReqId := rfl
@[simp] theorem setTx_cfgRespId (off : BitVec 12) (seq : BitVec 4) (s : State) : (s.setTx off seq).cfgRespId = s.cfgRespId := rfl
@[simp] theorem setTx_cfgFlagId (off : BitVec 12) (seq : BitVec 4) (s : State) : (s.setTx off seq).cfgFlagId = s.cfgFlagId := rfl
@[simp] theorem setTx_minParamLen (off : BitVec 12) (seq : BitVec 4) (s : State) : (s.setTx off seq).minParamLen = s.minParamLen := rfl
@[simp] theorem setTx_cfgPolicy (off : BitVec 12) (seq : BitVec 4) (s : State) : (s.setTx off seq).cfgPolicy = s.cfgPolicy := rfl
@[simp] theorem setTx_rxId (off : BitVec 12) (seq : BitVec 4) (s : State) : (s.setTx off seq).rxId = s.rxId := rfl
@[simp] theorem setTx_rxLen (off : BitVec 12) (seq : BitVec 4) (s : State) : (s.setTx off seq).rxLen = s.rxLen := rfl
@[simp] theorem setTx_rxData (off : BitVec 12) (seq : BitVec 4) (s : State) : (s.setTx off seq).rxData = s.rxData := rfl
@[simp] theorem setTx_reqSid (off : BitVec 12) (seq : BitVec 4) (s : State) : (s.setTx off seq).reqSid = s.reqSid := rfl
@[simp] theorem setTx_reqNParam (off : BitVec 12) (seq : BitVec 4) (s : State) : (s.setTx off seq).reqNParam = s.reqNParam := rfl
@[simp] theorem setTx_reqParam (off : BitVec 12) (seq : BitVec 4) (s : State) : (s.setTx off seq).reqParam = s.reqParam := rfl
@[simp] theorem setTx_rspLen (off : BitVec 12) (seq : BitVec 4) (s : State) : (s.setTx off seq).rspLen = s.rspLen := rfl
@[simp] theorem setTx_rspBuf (off : BitVec 12) (seq : BitVec 4) (s : State) : (s.setTx off seq).rspBuf = s.rspBuf := rfl
@[simp] theorem setTx_txOff (off : BitVec 12) (seq : BitVec 4) (s : State) : (s.setTx off seq).txOff = off := rfl
@[simp] theorem setTx_txSeq (off : BitVec 12) (seq : BitVec 4) (s : State) : (s.setTx off seq).txSeq = seq := rfl
@[simp] theorem setTx_lastOutcome (off : BitVec 12) (seq : BitVec 4) (s : State) : (s.setTx off seq).lastOutcome = s.lastOutcome := rfl
@[simp] theorem setTx_faultBit (off : BitVec 12) (seq : BitVec 4) (s : State) : (s.setTx off seq).faultBit = s.faultBit := rfl
@[simp] theorem setTx_out (off : BitVec 12) (seq : BitVec 4) (s : State) : (s.setTx off seq).out = s.out := rfl
@[simp] theorem setTx_rxPort (off : BitVec 12) (seq : BitVec 4) (s : State) : (s.setTx off seq).rxPort = s.rxPort := rfl
@[simp] theorem setTx_hpPort (off : BitVec 12) (seq : BitVec 4) (s : State) : (s.setTx off seq).hpPort = s.hpPort := rfl
@[simp] theorem setTx_txPort (off : BitVec 12) (seq : BitVec 4) (s : State) : (s.setTx off seq).txPort = s.txPort := rfl
@[simp] theorem setTx_resetLine (off : BitVec 12) (seq : BitVec 4) (s : State) : (s.setTx off seq).resetLine = s.resetLine := rfl
@[simp] theorem setTx_txLog (off : BitVec 12) (seq : BitVec 4) (s : State) : (s.setTx off seq).txLog = s.txLog := rfl
@[simp] theorem setTx_hpLog (off : BitVec 12) (seq : BitVec 4) (s : State) : (s.setTx off seq).hpLog = s.hpLog := rfl
@[simp] theorem setTx_handlers (off : BitVec 12) (seq : BitVec 4) (s : State) : (s.setTx off seq).handlers = s.handlers := rfl

@[simp] theorem sent_phase (bytes : List Byte) (answer : TxStatus) (later : List TxStatus) (s : State) : (s.sent bytes answer later).phase = s.phase := rfl
@[simp] theorem sent_cfgReqId (bytes : List Byte) (answer : TxStatus) (later : List TxStatus) (s : State) : (s.sent bytes answer later).cfgReqId = s.cfgReqId := rfl
@[simp] theorem sent_cfgRespId (bytes : List Byte) (answer : TxStatus) (later : List TxStatus) (s : State) : (s.sent bytes answer later).cfgRespId = s.cfgRespId := rfl
@[simp] theorem sent_cfgFlagId (bytes : List Byte) (answer : TxStatus) (later : List TxStatus) (s : State) : (s.sent bytes answer later).cfgFlagId = s.cfgFlagId := rfl
@[simp] theorem sent_minParamLen (bytes : List Byte) (answer : TxStatus) (later : List TxStatus) (s : State) : (s.sent bytes answer later).minParamLen = s.minParamLen := rfl
@[simp] theorem sent_cfgPolicy (bytes : List Byte) (answer : TxStatus) (later : List TxStatus) (s : State) : (s.sent bytes answer later).cfgPolicy = s.cfgPolicy := rfl
@[simp] theorem sent_rxId (bytes : List Byte) (answer : TxStatus) (later : List TxStatus) (s : State) : (s.sent bytes answer later).rxId = s.rxId := rfl
@[simp] theorem sent_rxLen (bytes : List Byte) (answer : TxStatus) (later : List TxStatus) (s : State) : (s.sent bytes answer later).rxLen = s.rxLen := rfl
@[simp] theorem sent_rxData (bytes : List Byte) (answer : TxStatus) (later : List TxStatus) (s : State) : (s.sent bytes answer later).rxData = s.rxData := rfl
@[simp] theorem sent_reqSid (bytes : List Byte) (answer : TxStatus) (later : List TxStatus) (s : State) : (s.sent bytes answer later).reqSid = s.reqSid := rfl
@[simp] theorem sent_reqNParam (bytes : List Byte) (answer : TxStatus) (later : List TxStatus) (s : State) : (s.sent bytes answer later).reqNParam = s.reqNParam := rfl
@[simp] theorem sent_reqParam (bytes : List Byte) (answer : TxStatus) (later : List TxStatus) (s : State) : (s.sent bytes answer later).reqParam = s.reqParam := rfl
@[simp] theorem sent_rspLen (bytes : List Byte) (answer : TxStatus) (later : List TxStatus) (s : State) : (s.sent bytes answer later).rspLen = s.rspLen := rfl
@[simp] theorem sent_rspBuf (bytes : List Byte) (answer : TxStatus) (later : List TxStatus) (s : State) : (s.sent bytes answer later).rspBuf = s.rspBuf := rfl
@[simp] theorem sent_txOff (bytes : List Byte) (answer : TxStatus) (later : List TxStatus) (s : State) : (s.sent bytes answer later).txOff = s.txOff := rfl
@[simp] theorem sent_txSeq (bytes : List Byte) (answer : TxStatus) (later : List TxStatus) (s : State) : (s.sent bytes answer later).txSeq = s.txSeq := rfl
@[simp] theorem sent_lastOutcome (bytes : List Byte) (answer : TxStatus) (later : List TxStatus) (s : State) : (s.sent bytes answer later).lastOutcome = s.lastOutcome := rfl
@[simp] theorem sent_faultBit (bytes : List Byte) (answer : TxStatus) (later : List TxStatus) (s : State) : (s.sent bytes answer later).faultBit = s.faultBit := rfl
@[simp] theorem sent_out (bytes : List Byte) (answer : TxStatus) (later : List TxStatus) (s : State) : (s.sent bytes answer later).out = s.out := rfl
@[simp] theorem sent_rxPort (bytes : List Byte) (answer : TxStatus) (later : List TxStatus) (s : State) : (s.sent bytes answer later).rxPort = s.rxPort := rfl
@[simp] theorem sent_hpPort (bytes : List Byte) (answer : TxStatus) (later : List TxStatus) (s : State) : (s.sent bytes answer later).hpPort = s.hpPort := rfl
@[simp] theorem sent_txPort (bytes : List Byte) (answer : TxStatus) (later : List TxStatus) (s : State) : (s.sent bytes answer later).txPort = later := rfl
@[simp] theorem sent_resetLine (bytes : List Byte) (answer : TxStatus) (later : List TxStatus) (s : State) : (s.sent bytes answer later).resetLine = s.resetLine := rfl
@[simp] theorem sent_txLog (bytes : List Byte) (answer : TxStatus) (later : List TxStatus) (s : State) : (s.sent bytes answer later).txLog = s.txLog ++ [{ frame := { id := s.cfgRespId, data := bytes }, status := answer }] := rfl
@[simp] theorem sent_hpLog (bytes : List Byte) (answer : TxStatus) (later : List TxStatus) (s : State) : (s.sent bytes answer later).hpLog = s.hpLog := rfl
@[simp] theorem sent_handlers (bytes : List Byte) (answer : TxStatus) (later : List TxStatus) (s : State) : (s.sent bytes answer later).handlers = s.handlers := rfl

@[simp] theorem endTransaction_phase (s : State) : (endTransaction s).phase = 0x0#4 := rfl
@[simp] theorem endTransaction_cfgReqId (s : State) : (endTransaction s).cfgReqId = s.cfgReqId := rfl
@[simp] theorem endTransaction_cfgRespId (s : State) : (endTransaction s).cfgRespId = s.cfgRespId := rfl
@[simp] theorem endTransaction_cfgFlagId (s : State) : (endTransaction s).cfgFlagId = s.cfgFlagId := rfl
@[simp] theorem endTransaction_minParamLen (s : State) : (endTransaction s).minParamLen = s.minParamLen := rfl
@[simp] theorem endTransaction_cfgPolicy (s : State) : (endTransaction s).cfgPolicy = s.cfgPolicy := rfl
@[simp] theorem endTransaction_rxId (s : State) : (endTransaction s).rxId = s.rxId := rfl
@[simp] theorem endTransaction_rxLen (s : State) : (endTransaction s).rxLen = s.rxLen := rfl
@[simp] theorem endTransaction_rxData (s : State) : (endTransaction s).rxData = s.rxData := rfl
@[simp] theorem endTransaction_reqSid (s : State) : (endTransaction s).reqSid = s.reqSid := rfl
@[simp] theorem endTransaction_reqNParam (s : State) : (endTransaction s).reqNParam = s.reqNParam := rfl
@[simp] theorem endTransaction_reqParam (s : State) : (endTransaction s).reqParam = s.reqParam := rfl
@[simp] theorem endTransaction_rspLen (s : State) : (endTransaction s).rspLen = s.rspLen := rfl
@[simp] theorem endTransaction_rspBuf (s : State) : (endTransaction s).rspBuf = s.rspBuf := rfl
@[simp] theorem endTransaction_txOff (s : State) : (endTransaction s).txOff = s.txOff := rfl
@[simp] theorem endTransaction_txSeq (s : State) : (endTransaction s).txSeq = s.txSeq := rfl
@[simp] theorem endTransaction_lastOutcome (s : State) : (endTransaction s).lastOutcome = s.out.code := rfl
@[simp] theorem endTransaction_faultBit (s : State) : (endTransaction s).faultBit = s.faultBit := rfl
@[simp] theorem endTransaction_out (s : State) : (endTransaction s).out = s.out := rfl
@[simp] theorem endTransaction_rxPort (s : State) : (endTransaction s).rxPort = s.rxPort := rfl
@[simp] theorem endTransaction_hpPort (s : State) : (endTransaction s).hpPort = s.hpPort := rfl
@[simp] theorem endTransaction_txPort (s : State) : (endTransaction s).txPort = s.txPort := rfl
@[simp] theorem endTransaction_resetLine (s : State) : (endTransaction s).resetLine = s.resetLine := rfl
@[simp] theorem endTransaction_txLog (s : State) : (endTransaction s).txLog = s.txLog := rfl
@[simp] theorem endTransaction_hpLog (s : State) : (endTransaction s).hpLog = s.hpLog := rfl
@[simp] theorem endTransaction_handlers (s : State) : (endTransaction s).handlers = s.handlers := rfl

@[simp] theorem abortSend_phase (s : State) : (abortSend s).phase = 0x0#4 := rfl
@[simp] theorem abortSend_cfgReqId (s : State) : (abortSend s).cfgReqId = s.cfgReqId := rfl
@[simp] theorem abortSend_cfgRespId (s : State) : (abortSend s).cfgRespId = s.cfgRespId := rfl
@[simp] theorem abortSend_cfgFlagId (s : State) : (abortSend s).cfgFlagId = s.cfgFlagId := rfl
@[simp] theorem abortSend_minParamLen (s : State) : (abortSend s).minParamLen = s.minParamLen := rfl
@[simp] theorem abortSend_cfgPolicy (s : State) : (abortSend s).cfgPolicy = s.cfgPolicy := rfl
@[simp] theorem abortSend_rxId (s : State) : (abortSend s).rxId = s.rxId := rfl
@[simp] theorem abortSend_rxLen (s : State) : (abortSend s).rxLen = s.rxLen := rfl
@[simp] theorem abortSend_rxData (s : State) : (abortSend s).rxData = s.rxData := rfl
@[simp] theorem abortSend_reqSid (s : State) : (abortSend s).reqSid = s.reqSid := rfl
@[simp] theorem abortSend_reqNParam (s : State) : (abortSend s).reqNParam = s.reqNParam := rfl
@[simp] theorem abortSend_reqParam (s : State) : (abortSend s).reqParam = s.reqParam := rfl
@[simp] theorem abortSend_rspLen (s : State) : (abortSend s).rspLen = s.rspLen := rfl
@[simp] theorem abortSend_rspBuf (s : State) : (abortSend s).rspBuf = s.rspBuf := rfl
@[simp] theorem abortSend_txOff (s : State) : (abortSend s).txOff = s.txOff := rfl
@[simp] theorem abortSend_txSeq (s : State) : (abortSend s).txSeq = s.txSeq := rfl
@[simp] theorem abortSend_lastOutcome (s : State) : (abortSend s).lastOutcome = 0xB#4 := rfl
@[simp] theorem abortSend_faultBit (s : State) : (abortSend s).faultBit = s.faultBit := rfl
@[simp] theorem abortSend_out (s : State) : (abortSend s).out = .txAborted := rfl
@[simp] theorem abortSend_rxPort (s : State) : (abortSend s).rxPort = s.rxPort := rfl
@[simp] theorem abortSend_hpPort (s : State) : (abortSend s).hpPort = s.hpPort := rfl
@[simp] theorem abortSend_txPort (s : State) : (abortSend s).txPort = s.txPort := rfl
@[simp] theorem abortSend_resetLine (s : State) : (abortSend s).resetLine = s.resetLine := rfl
@[simp] theorem abortSend_txLog (s : State) : (abortSend s).txLog = s.txLog := rfl
@[simp] theorem abortSend_hpLog (s : State) : (abortSend s).hpLog = s.hpLog := rfl
@[simp] theorem abortSend_handlers (s : State) : (abortSend s).handlers = s.handlers := rfl

@[simp] theorem callHandler_phase (sid : Byte) (params : List Byte) (s : State) : (callHandler sid params s).phase = 0x4#4 := rfl
@[simp] theorem callHandler_cfgReqId (sid : Byte) (params : List Byte) (s : State) : (callHandler sid params s).cfgReqId = s.cfgReqId := rfl
@[simp] theorem callHandler_cfgRespId (sid : Byte) (params : List Byte) (s : State) : (callHandler sid params s).cfgRespId = s.cfgRespId := rfl
@[simp] theorem callHandler_cfgFlagId (sid : Byte) (params : List Byte) (s : State) : (callHandler sid params s).cfgFlagId = s.cfgFlagId := rfl
@[simp] theorem callHandler_minParamLen (sid : Byte) (params : List Byte) (s : State) : (callHandler sid params s).minParamLen = s.minParamLen := rfl
@[simp] theorem callHandler_cfgPolicy (sid : Byte) (params : List Byte) (s : State) : (callHandler sid params s).cfgPolicy = s.cfgPolicy := rfl
@[simp] theorem callHandler_rxId (sid : Byte) (params : List Byte) (s : State) : (callHandler sid params s).rxId = s.rxId := rfl
@[simp] theorem callHandler_rxLen (sid : Byte) (params : List Byte) (s : State) : (callHandler sid params s).rxLen = s.rxLen := rfl
@[simp] theorem callHandler_rxData (sid : Byte) (params : List Byte) (s : State) : (callHandler sid params s).rxData = s.rxData := rfl
@[simp] theorem callHandler_reqSid (sid : Byte) (params : List Byte) (s : State) : (callHandler sid params s).reqSid = s.reqSid := rfl
@[simp] theorem callHandler_reqNParam (sid : Byte) (params : List Byte) (s : State) : (callHandler sid params s).reqNParam = s.reqNParam := rfl
@[simp] theorem callHandler_reqParam (sid : Byte) (params : List Byte) (s : State) : (callHandler sid params s).reqParam = s.reqParam := rfl
@[simp] theorem callHandler_rspLen (sid : Byte) (params : List Byte) (s : State) : (callHandler sid params s).rspLen = s.rspLen := rfl
@[simp] theorem callHandler_rspBuf (sid : Byte) (params : List Byte) (s : State) : (callHandler sid params s).rspBuf = s.rspBuf := rfl
@[simp] theorem callHandler_txOff (sid : Byte) (params : List Byte) (s : State) : (callHandler sid params s).txOff = s.txOff := rfl
@[simp] theorem callHandler_txSeq (sid : Byte) (params : List Byte) (s : State) : (callHandler sid params s).txSeq = s.txSeq := rfl
@[simp] theorem callHandler_lastOutcome (sid : Byte) (params : List Byte) (s : State) : (callHandler sid params s).lastOutcome = s.lastOutcome := rfl
@[simp] theorem callHandler_faultBit (sid : Byte) (params : List Byte) (s : State) : (callHandler sid params s).faultBit = s.faultBit := rfl
@[simp] theorem callHandler_out (sid : Byte) (params : List Byte) (s : State) : (callHandler sid params s).out = s.out := rfl
@[simp] theorem callHandler_rxPort (sid : Byte) (params : List Byte) (s : State) : (callHandler sid params s).rxPort = s.rxPort := rfl
@[simp] theorem callHandler_hpPort (sid : Byte) (params : List Byte) (s : State) : (callHandler sid params s).hpPort = s.hpPort := rfl
@[simp] theorem callHandler_txPort (sid : Byte) (params : List Byte) (s : State) : (callHandler sid params s).txPort = s.txPort := rfl
@[simp] theorem callHandler_resetLine (sid : Byte) (params : List Byte) (s : State) : (callHandler sid params s).resetLine = s.resetLine := rfl
@[simp] theorem callHandler_txLog (sid : Byte) (params : List Byte) (s : State) : (callHandler sid params s).txLog = s.txLog := rfl
@[simp] theorem callHandler_hpLog (sid : Byte) (params : List Byte) (s : State) : (callHandler sid params s).hpLog = s.hpLog ++ [{ sid := sid, params := params }] := rfl
@[simp] theorem callHandler_handlers (sid : Byte) (params : List Byte) (s : State) : (callHandler sid params s).handlers = s.handlers := rfl

@[simp] theorem ofCode_code (p : Phase) : Phase.ofCode p.code = some p := by cases p <;> decide

/-- A PHASE value that names a phase is that phase's code (R13). -/
theorem code_of_ofCode {c : BitVec 4} {p : Phase} (h : Phase.ofCode c = some p) : c = p.code := by
  unfold Phase.ofCode at h
  repeat' (split at h)
  all_goals first | (cases h; simpa [Phase.code]) | cases h

/-- Every outcome code is below the reserved ones (R109). -/
theorem TxnOutcome.code_le (o : TxnOutcome) : o.code.toNat ≤ 0xB := by cases o <;> decide

end Sys2Proof.Machine
end

