-- ==== Sys2Proof/Laws/Ops.lean ====
section
/-! SUPPORT. One lemma for each shared operation: everything it can do. Later proofs cite these instead of unfolding. -/

namespace Sys2Proof.Machine

@[simp] theorem andThen_next (s : State) (f : State → Result) : Result.andThen (.next s) f = f s := rfl

@[simp] theorem andThen_fault (e : Fault) (f : State → Result) : Result.andThen (.fault e) f = .fault e := rfl

@[simp] theorem andThen_refused (e : Refusal) (f : State → Result) : Result.andThen (.refused e) f = .refused e := rfl

/-- A sequence answers a next state only through a next state of its first part. -/
theorem andThen_eq_next {r : Result} {f : State → Result} {t : State} (h : r.andThen f = .next t) :
    ∃ s, r = .next s ∧ f s = .next t := by
  cases r with
  | next s => exact ⟨s, rfl, h⟩
  | fault e => cases h
  | refused e => cases h

/-! ## RSP_BUF -/

/-- MemWrite inside RSP_BUF (R27). -/
theorem memWrite_of_le {a : Nat} {v : List Byte} (h : a + v.length ≤ 4095) (s : State) :
    memWrite a v s = .next { s with rspBuf := s.rspBuf.writeBytes a v } := by
  unfold memWrite Config.maxMessage
  rw [if_neg (by omega)]

/-- MemRead of bytes that all hold a value (R27). -/
theorem memRead_ok {a n : Nat} {s : State} (hn : a + n ≤ s.rspLen.toNat)
    (h : ∀ i, i < n → s.rspBuf.read (a + i) ≠ none) :
    ∃ bs, memRead a n s = .ok bs ∧ bs.length = n ∧ ∀ i, i < n → s.rspBuf.read (a + i) = bs[i]? := by
  obtain ⟨bs, hbs⟩ := Memory.readBytes_isSome h
  have hlt := s.rspLen.isLt
  refine ⟨bs, ?_, Memory.readBytes_spec hbs⟩
  unfold memRead Config.maxMessage
  rw [if_neg (by omega), if_neg (by omega), hbs]

/-- What a MemRead that answers bytes has read. -/
theorem memRead_eq_ok {a n : Nat} {s : State} {bs : List Byte} (h : memRead a n s = .ok bs) :
    a + n ≤ s.rspLen.toNat ∧ bs.length = n ∧ ∀ i, i < n → s.rspBuf.read (a + i) = bs[i]? := by
  unfold memRead at h
  split at h
  · cases h
  · split at h
    · cases h
    · split at h
      · rename_i hb; cases h; exact ⟨by omega, Memory.readBytes_spec hb⟩
      · cases h

/-! ## Endings -/

/-- A drop (R110, R111). -/
theorem raiseDrop_eq (reason : TxnOutcome) (s : State) :
    raiseDrop reason s = .next { s with out := reason, lastOutcome := reason.code, phase := 0x0#4 } := rfl

/-- The fault (R113). -/
theorem raisePayloadTooLarge_eq (s : State) :
    raisePayloadTooLarge s =
      .next { s with out := .faultPayloadTooLarge, faultBit := true, lastOutcome := 0xA#4, phase := 0x0#4 } := rfl

/-- The error builder (R76). -/
theorem buildNR_eq (sid code : Byte) (s : State) :
    buildNR sid code s = .next { s with rspLen := 3#12, rspBuf := s.rspBuf.writeBytes 0 [0x7F#8, sid, code] } := rfl

/-- A negative response goes to the segmenter (R70). -/
theorem raiseNrc_eq (sid code : Byte) (o : TxnOutcome) (s : State) :
    raiseNrc sid code o s =
      .next { s with rspLen := 3#12, rspBuf := s.rspBuf.writeBytes 0 [0x7F#8, sid, code], out := o, phase := 0x5#4 } := rfl

/-! ## Emit -/

/-- No answer yet: the block waits (R93). -/
theorem emit_waits {bytes : List Byte} {f : State → State} {s : State} (h : s.txPort = []) :
    emit bytes f s = .next s := by simp [emit, h]

/-- The transport took the frame (R93). -/
theorem emit_ok {bytes : List Byte} {f : State → State} {s : State} {later : List TxStatus} (h : s.txPort = .ok :: later) :
    emit bytes f s = .next (f (s.sent bytes .ok later)) := by simp [emit, h]

/-- The transport did not take the frame (R94). -/
theorem emit_fail {bytes : List Byte} {f : State → State} {s : State} {later : List TxStatus}
    (h : s.txPort = .fail :: later) : emit bytes f s = .next (abortSend (s.sent bytes .fail later)) := by simp [emit, h]

/-- Everything Emit can do. -/
theorem emit_cases (bytes : List Byte) (f : State → State) (s : State) :
    (s.txPort = [] ∧ emit bytes f s = .next s)
    ∨ (∃ later, s.txPort = .ok :: later ∧ emit bytes f s = .next (f (s.sent bytes .ok later)))
    ∨ (∃ later, s.txPort = .fail :: later ∧ emit bytes f s = .next (abortSend (s.sent bytes .fail later))) := by
  match h : s.txPort with
  | [] => exact .inl ⟨rfl, emit_waits h⟩
  | .ok :: later => exact .inr (.inl ⟨later, rfl, emit_ok h⟩)
  | .fail :: later => exact .inr (.inr ⟨later, rfl, emit_fail h⟩)

/-! ## Receive and dispatch -/

/-- Everything DecodeRequest can do (R61, R62, R64). -/
theorem decodeRequest_cases (l : Nibble) (sid : Byte) (rest : List Byte) (s : State) :
    (availableBytes s.cfgPolicy (2 + rest.length) < l.toNat
      ∧ decodeRequest l sid rest s = raiseDrop .dropLengthExceeds s)
    ∨ (l = 0#4 ∧ zeroLengthDispatches s.cfgPolicy = false ∧ decodeRequest l sid rest s = raiseDrop .dropZeroLength s)
    ∨ (l.toNat ≤ availableBytes s.cfgPolicy (2 + rest.length) ∧ (l = 0#4 → zeroLengthDispatches s.cfgPolicy = true)
      ∧ decodeRequest l sid rest s
        = .next ((s.latchRequest sid (rest.take (paramCount l (2 + rest.length)))).setPhase .dispatch)) := by
  unfold decodeRequest
  split
  · exact .inl ⟨‹_›, rfl⟩
  · split
    · rename_i _ hl
      subst hl
      split
      · exact .inr (.inr ⟨Nat.zero_le _, fun _ => ‹_›, by simp [paramCount]⟩)
      · rename_i hz; exact .inr (.inl ⟨rfl, Bool.eq_false_iff.mpr hz, rfl⟩)
    · exact .inr (.inr ⟨by omega, fun h => absurd h ‹_›, rfl⟩)

/-- Everything Dispatch() can do up to the handler call (R71, R72, R73). -/
theorem dispatch_cases (sid : Byte) (params : List Byte) (s : State) :
    (entryPresent (minEntry s.minParamLen sid) = false
      ∧ dispatch sid params s = raiseNrc sid 0x11#8 .respServiceNotSupported s)
    ∨ (entryPresent (minEntry s.minParamLen sid) = true ∧ params.length < entryMin (minEntry s.minParamLen sid)
      ∧ dispatch sid params s = raiseNrc sid 0x13#8 .respIncorrectLength s)
    ∨ (entryPresent (minEntry s.minParamLen sid) = true ∧ entryMin (minEntry s.minParamLen sid) ≤ params.length
      ∧ dispatch sid params s = .next (callHandler sid params s)) := by
  unfold dispatch
  by_cases hp : entryPresent (minEntry s.minParamLen sid) = true
  · by_cases hm : params.length < entryMin (minEntry s.minParamLen sid)
    · exact .inr (.inl ⟨hp, hm, by simp [hp, hm]⟩)
    · exact .inr (.inr ⟨hp, by omega, by simp [hp, hm]⟩)
  · exact .inl ⟨by simpa using hp, by simp [hp]⟩

/-- Everything a reply can become (R74, R75, R84). -/
theorem acceptReply_cases (r : Reply) (s : State) :
    (∃ data, r = .positive data ∧ 4094 < data.length ∧ acceptReply r s = raisePayloadTooLarge s)
    ∨ (∃ data, r = .positive data ∧ data.length ≤ 4094
        ∧ acceptReply r s = .next { s with
            rspLen := BitVec.ofNat 12 (1 + data.length)
            rspBuf := s.rspBuf.writeBytes 0 (positiveSid s.reqSid :: data)
            out := .respPositive, phase := 0x5#4 })
    ∨ (∃ code, r = .negative code ∧ acceptReply r s = raiseNrc s.reqSid code .respNegative s) := by
  cases r with
  | negative code => exact .inr (.inr ⟨code, rfl, rfl⟩)
  | positive data =>
    by_cases h : 4094 < data.length
    · refine .inl ⟨data, rfl, h, ?_⟩
      simp only [acceptReply, Config.maxMessage]
      rw [if_pos (by omega)]
    · refine .inr (.inl ⟨data, rfl, by omega, ?_⟩)
      simp only [acceptReply, Config.maxMessage]
      rw [if_neg (by omega), memWrite_of_le (by simp), andThen_next, memWrite_of_le (by omega), andThen_next]
      rfl

/-- Everything the segmentation choice can do (R85). -/
theorem chooseSegmentation_cases (s : State) :
    (s.rspLen = 0#12 ∧ chooseSegmentation s = .refused .emptyResponse)
    ∨ (1 ≤ s.rspLen.toNat ∧ s.rspLen.toNat ≤ 7 ∧ chooseSegmentation s = .next (s.setPhase .sendSF))
    ∨ (8 ≤ s.rspLen.toNat ∧ chooseSegmentation s = .next (s.setPhase .sendFF)) := by
  unfold chooseSegmentation Config.sfCapacity
  by_cases h0 : s.rspLen = 0#12
  · exact .inl ⟨h0, if_pos h0⟩
  · have h1 : s.rspLen.toNat ≠ 0 := fun h => h0 (BitVec.eq_of_toNat_eq h)
    rw [if_neg h0]
    split
    · exact .inr (.inl ⟨by omega, ‹_›, rfl⟩)
    · exact .inr (.inr ⟨by omega, rfl⟩)

end Sys2Proof.Machine
end

