-- ==== Sys2Proof/Laws/PerInstr.lean ====
section
/-! SUPPORT. Statements about every instruction as syntax, one lemma for each constructor (LAWS.json).
EncodedLength: the frame of a well-formed instruction has 2 to 8 bytes (30_encoding.md R43, R50). -/

namespace Sys2Proof.Laws.EncodedLength

def Statement (i : Instr) : Prop := i.wf = true → 2 ≤ (encode i).length ∧ (encode i).length ≤ 8

theorem rxSF (l : Nibble) (sid : Byte) (rest : List Byte) : Statement (.rxSF l sid rest) := by
  intro h
  simp [Instr.wf, restFits] at h
  simp [encode]
  omega

theorem rxFF (tlen : BitVec 12) (rest : List Byte) : Statement (.rxFF tlen rest) := by
  intro h
  simp [Instr.wf, restFits] at h
  simp [encode]
  omega

theorem rxCF (n : Nibble) (rest : List Byte) : Statement (.rxCF n rest) := by
  intro h
  simp [Instr.wf, tailFits] at h
  simp [encode]
  omega

theorem rxOther3 (nib : Nibble) (rest : List Byte) : Statement (.rxOther3 nib rest) := by
  intro h
  simp [Instr.wf, tailFits] at h
  simp [encode]
  omega

theorem rxOther4to7 (ty : BitVec 2) (nib : Nibble) (rest : List Byte) : Statement (.rxOther4to7 ty nib rest) := by
  intro h
  simp [Instr.wf, tailFits] at h
  simp [encode]
  omega

theorem rxOther8toF (ty : BitVec 3) (nib : Nibble) (rest : List Byte) : Statement (.rxOther8toF ty nib rest) := by
  intro h
  simp [Instr.wf, tailFits] at h
  simp [encode]
  omega

theorem dsc (params : List Byte) : Statement (.dsc params) := by
  intro h
  simp [Instr.wf, restFits] at h
  simp [encode, singleFrame]
  omega

theorem er (params : List Byte) : Statement (.er params) := by
  intro h
  simp [Instr.wf, restFits] at h
  simp [encode, singleFrame]
  omega

theorem cdtci (params : List Byte) : Statement (.cdtci params) := by
  intro h
  simp [Instr.wf, restFits] at h
  simp [encode, singleFrame]
  omega

theorem rdbi (params : List Byte) : Statement (.rdbi params) := by
  intro h
  simp [Instr.wf, restFits] at h
  simp [encode, singleFrame]
  omega

theorem rmba (params : List Byte) : Statement (.rmba params) := by
  intro h
  simp [Instr.wf, restFits] at h
  simp [encode, singleFrame]
  omega

theorem sa (params : List Byte) : Statement (.sa params) := by
  intro h
  simp [Instr.wf, restFits] at h
  simp [encode, singleFrame]
  omega

theorem sidUnsupported (sid : Byte) (params : List Byte) : Statement (.sidUnsupported sid params) := by
  intro h
  simp [Instr.wf, restFits] at h
  simp [encode, singleFrame]
  omega

theorem txSF (sidPos : Byte) (rest : List Byte) : Statement (.txSF sidPos rest) := by
  intro h
  simp [Instr.wf, restFits] at h
  simp [encode, singleFrame]
  omega

theorem txFF (tlen : BitVec 12) (data : List Byte) : Statement (.txFF tlen data) := by
  intro h
  simp [Instr.wf] at h
  simp [encode]
  omega

theorem txCF (n : Nibble) (data : List Byte) : Statement (.txCF n data) := by
  intro h
  simp [Instr.wf, tailFits] at h
  simp [encode]
  omega

theorem txNR (sid nrc : Byte) : Statement (.txNR sid nrc) := by
  intro _
  simp [encode]

end Sys2Proof.Laws.EncodedLength
end

