-- ==== Sys2Proof/Laws/Step.lean ====
section
/-! SUPPORT. Everything one step can do, said once: `StepEffect`, with `step_effect` for the inversion. -/

namespace Sys2Proof.Machine

/-- With a legal configuration and no reset asserted, a step is what its phase does. -/
theorem step_eq_runPhase {p : Phase} {s : State} (hc : s.configurationLegal = true) (hr : s.resetLine = false)
    (hp : s.phase = p.code) : step s = runPhase p s := by
  simp [step, hc, hr, hp]

/-- A step that answers a next state had a legal configuration, and was a reset or a phase. -/
theorem step_inversion {s t : State} (h : step s = .next t) :
    s.configurationLegal = true ∧
      ((s.resetLine = true ∧ t = applyReset s)
      ∨ (s.resetLine = false ∧ ∃ p : Phase, s.phase = p.code ∧ runPhase p s = .next t)) := by
  unfold step at h
  split at h
  · cases h
  · rename_i hc
    refine ⟨by simpa using hc, ?_⟩
    split at h
    · cases h; exact .inl ⟨‹_›, rfl⟩
    · rename_i hr
      refine .inr ⟨by simpa using hr, ?_⟩
      split at h
      · cases h
      · exact ⟨_, code_of_ofCode ‹_›, h⟩

/-- The state a transmit row starts Emit from. -/
def emitBase (i : Instr) (s : State) : State :=
  match i with
  | .txNR sid nrc =>
    State.setPhase .sendSF { s with rspLen := 3#12, rspBuf := s.rspBuf.writeBytes 0 [0x7F#8, sid, nrc] }
  | .txFF _ _ => s.setPhase .sendFF
  | .txCF _ _ => s.setPhase .sendCF
  | _ => s.setPhase .sendSF

/-- What follows `ok` in a transmit row. -/
def emitDone (i : Instr) (s : State) : State :=
  match i with
  | .txFF _ _ => (s.setTx 6#12 1#4).setPhase .sendCF
  | .txCF n data => afterCF data.length n s
  | _ => endTransaction s

/-- A transmit row is one Emit of its frame. -/
theorem exec_transmit {i : Instr} (h : i.stage = .transmit) (s : State) :
    exec i s = emit (encode i) (emitDone i) (emitBase i s) := by
  cases i <;> first | rfl | cases h

/-- What a phase of the segmenter has fetched: the frame of a well-formed transmit row, of the phase's own format. -/
structure Sends (s : State) (i : Instr) : Prop where
  stage : i.stage = .transmit
  wf : i.wf = true
  single : s.phase = 0x6#4 → ∃ m, memRead 0 s.rspLen.toNat s = .ok m ∧
    ((∃ m0 rest, i = .txSF m0 rest ∧ m = m0 :: rest) ∨ ∃ sid nrc, i = .txNR sid nrc ∧ m = [0x7F#8, sid, nrc])
  first : s.phase = 0x7#4 → ∃ m, memRead 0 6 s = .ok m ∧ i = .txFF s.rspLen m
  consecutive : s.phase = 0x8#4 → ∃ m, memRead s.txOff.toNat (min 7 (s.rspLen.toNat - s.txOff.toNat)) s = .ok m
    ∧ i = .txCF s.txSeq m

/-- Everything one step can do. -/
inductive StepEffect (s : State) : State → Prop
  | reset (h : s.resetLine = true) : StepEffect s (applyReset s)
  | noFrame (hp : s.phase = 0x0#4) (h : s.rxPort = []) : StepEffect s s
  | accepted (hp : s.phase = 0x0#4) (f : Frame) (later : List Frame) (h : s.rxPort = f :: later)
      (hf : f.data.length ≤ 8) :
      StepEffect s { s with
        rxPort := later, rxId := f.id, rxLen := BitVec.ofNat 4 f.data.length, rxData := loadRxData f.data s.rxData
        phase := 0x1#4 }
  | wrongId (hp : s.phase = 0x1#4) (h : s.rxId ≠ s.cfgReqId) :
      StepEffect s { s with out := .dropWrongId, lastOutcome := 0x1#4, phase := 0x0#4 }
  | rightId (hp : s.phase = 0x1#4) (h : s.rxId = s.cfgReqId) : StepEffect s { s with phase := 0x2#4 }
  | dropped (hp : s.phase = 0x2#4) (reason : TxnOutcome) :
      StepEffect s { s with out := reason, lastOutcome := reason.code, phase := 0x0#4 }
  | decoded (hp : s.phase = 0x2#4) (sid : Byte) (params : List Byte) (h : params.length ≤ 6) :
      StepEffect s { s with
        reqSid := sid, reqNParam := BitVec.ofNat 3 params.length, reqParam := loadReqParam params s.reqParam
        phase := 0x3#4 }
  | answeredNr (hp : s.phase = 0x3#4) (code : Byte) (o : TxnOutcome) :
      StepEffect s { s with
        rspLen := 3#12, rspBuf := s.rspBuf.writeBytes 0 [0x7F#8, s.reqSid, code], out := o, phase := 0x5#4 }
  | called (hp : s.phase = 0x3#4) (hn : s.reqNParam.toNat ≤ 6)
      (h : entryPresent (minEntry s.minParamLen s.reqSid) = true)
      (hm : entryMin (minEntry s.minParamLen s.reqSid) ≤ s.reqNParam.toNat) :
      StepEffect s { s with hpLog := s.hpLog ++ [{ sid := s.reqSid, params := s.reqParams }], phase := 0x4#4 }
  | noAnswer (hp : s.phase = 0x4#4) (h : s.hpPort = []) : StepEffect s s
  | positive (hp : s.phase = 0x4#4) (data : List Byte) (after : HandlerState) (later : List HandlerAnswer)
      (h : s.hpPort = { reply := .positive data, after := after } :: later) (hl : data.length ≤ 4094) :
      StepEffect s { s with
        hpPort := later, handlers := after, rspLen := BitVec.ofNat 12 (1 + data.length)
        rspBuf := s.rspBuf.writeBytes 0 (positiveSid s.reqSid :: data), out := .respPositive, phase := 0x5#4 }
  | oversized (hp : s.phase = 0x4#4) (data : List Byte) (after : HandlerState) (later : List HandlerAnswer)
      (h : s.hpPort = { reply := .positive data, after := after } :: later) (hl : 4094 < data.length) :
      StepEffect s { s with
        hpPort := later, handlers := after, out := .faultPayloadTooLarge, faultBit := true, lastOutcome := 0xA#4
        phase := 0x0#4 }
  | negative (hp : s.phase = 0x4#4) (code : Byte) (after : HandlerState) (later : List HandlerAnswer)
      (h : s.hpPort = { reply := .negative code, after := after } :: later) :
      StepEffect s { s with
        hpPort := later, handlers := after, rspLen := 3#12
        rspBuf := s.rspBuf.writeBytes 0 [0x7F#8, s.reqSid, code], out := .respNegative, phase := 0x5#4 }
  | single (hp : s.phase = 0x5#4) (h1 : 1 ≤ s.rspLen.toNat) (h7 : s.rspLen.toNat ≤ 7) :
      StepEffect s { s with phase := 0x6#4 }
  | multi (hp : s.phase = 0x5#4) (h8 : 8 ≤ s.rspLen.toNat) : StepEffect s { s with phase := 0x7#4 }
  | noStatus (hp : s.phase = 0x6#4 ∨ s.phase = 0x7#4 ∨ s.phase = 0x8#4) (i : Instr) (hi : Sends s i)
      (h : s.txPort = []) : StepEffect s (emitBase i s)
  | emitted (hp : s.phase = 0x6#4 ∨ s.phase = 0x7#4 ∨ s.phase = 0x8#4) (i : Instr) (hi : Sends s i)
      (later : List TxStatus) (h : s.txPort = .ok :: later) :
      StepEffect s (emitDone i ((emitBase i s).sent (encode i) .ok later))
  | failed (hp : s.phase = 0x6#4 ∨ s.phase = 0x7#4 ∨ s.phase = 0x8#4) (i : Instr) (hi : Sends s i)
      (later : List TxStatus) (h : s.txPort = .fail :: later) :
      StepEffect s (abortSend ((emitBase i s).sent (encode i) .fail later))

/-- Decoding answers an instruction of the stage, well-formed at the transmit stage. -/
theorem decode_transmit_wf {bytes : List Byte} {i : Instr} (h : decode .transmit bytes = .ok i) :
    i.stage = .transmit ∧ i.wf = true := by
  match bytes, h with
  | [], h => simp [decode] at h
  | [_], h => simp [decode] at h
  | b0 :: b1 :: rest, h =>
    simp only [decode, decodeTransmit] at h
    repeat' (split at h)
    all_goals first | (cases h; done) | skip
    · cases h; exact ⟨rfl, rfl⟩
    · rename_i h7; cases h; exact ⟨rfl, by simpa [Instr.wf, restFits] using h7⟩
    · rename_i hl _ hne
      cases h
      refine ⟨rfl, ?_⟩
      simp only [Instr.wf, restFits, Bool.and_eq_true, decide_eq_true_eq, Bool.not_eq_true', Bool.and_eq_false_iff,
        decide_eq_false_iff_not]
      refine ⟨by omega, .inr fun h2 => ?_⟩
      match rest, h2 with
      | [a, b], _ => exact hne a b rfl
    · rename_i hl; cases h; exact ⟨rfl, by simp [Instr.wf, hl]⟩
    · rename_i hl hn
      cases h
      refine ⟨rfl, ?_⟩
      simp only [Instr.wf, tailFits, List.length_cons, Bool.and_eq_true, decide_eq_true_eq]
      exact ⟨hn, by omega, by omega⟩

/-- A byte of type 0 read at the transmit stage: a single frame, TX.NR among them (R45, R48). -/
theorem decode_single {b0 : Byte} {m : List Byte} {i : Instr} (h : decode .transmit (b0 :: m) = .ok i)
    (ht : pciType b0 = 0x0#4) :
    (∃ m0 rest, i = .txSF m0 rest ∧ m = m0 :: rest) ∨ ∃ sid nrc, i = .txNR sid nrc ∧ m = [0x7F#8, sid, nrc] := by
  match m, h with
  | [], h => simp [decode] at h
  | b1 :: rest, h =>
    simp only [decode, decodeTransmit, ht, if_true] at h
    repeat' (split at h)
    all_goals first | (cases h; done) | skip
    all_goals cases h; simp_all

/-- A byte of type 1 read at the transmit stage: a first frame (R46). -/
theorem decode_first {n : Nibble} {b1 : Byte} {m : List Byte} {i : Instr}
    (h : decode .transmit (pciByte 0x1#4 n :: b1 :: m) = .ok i) : i = .txFF (ffLength (pciByte 0x1#4 n) b1) m := by
  simp only [decode, decodeTransmit, pciType_pciByte] at h
  repeat' (split at h)
  all_goals first | (cases h; done) | skip
  all_goals cases h; simp_all

/-- A byte of type 2 read at the transmit stage: a consecutive frame (R47). -/
theorem decode_consecutive {n : Nibble} {m : List Byte} {i : Instr}
    (h : decode .transmit (pciByte 0x2#4 n :: m) = .ok i) : i = .txCF n m := by
  match m, h with
  | [], h => simp [decode] at h
  | b1 :: rest, h =>
    simp only [decode, decodeTransmit, pciType_pciByte, pciNibble_pciByte] at h
    repeat' (split at h)
    all_goals first | (cases h; done) | skip
    all_goals cases h; simp_all

/-- Everything RX.SF, RX.FF, RX.CF and RX.OTHER do. -/
theorem exec_receive_effect {s t : State} (hp : s.phase = 0x2#4) (b0 b1 : Byte) (rest : List Byte)
    (hl : rest.length ≤ 6) (h : exec (decodeReceive b0 b1 rest) s = .next t) : StepEffect s t := by
  unfold decodeReceive at h
  split at h
  · simp only [exec, execRxSF] at h
    obtain ⟨-, he⟩ | ⟨-, -, he⟩ | ⟨-, -, he⟩ := decodeRequest_cases (pciNibble b0) b1 rest s <;> rw [he] at h
    · cases h; exact .dropped hp _
    · cases h; exact .dropped hp _
    · cases h; exact .decoded hp b1 _ (by simp; omega)
  · repeat' (split at h)
    all_goals cases h; exact .dropped hp _

/-- Everything the seven dispatch rows do. -/
theorem exec_service_effect {s t : State} (hp : s.phase = 0x3#4) (hn : s.reqNParam.toNat ≤ 6)
    (h : exec (decodeService s.reqSid s.reqParams) s = .next t) : StepEffect s t := by
  have hd : dispatch s.reqSid s.reqParams s = .next t := by
    unfold decodeService at h
    repeat' (split at h)
    all_goals simp only [exec, execDsc, execEr, execCdtci, execRdbi, execRmba, execSa, execSidUnsupported] at h
    all_goals simp_all
  obtain ⟨-, he⟩ | ⟨-, -, he⟩ | ⟨hpr, hm, he⟩ := dispatch_cases s.reqSid s.reqParams s <;> rw [he] at hd
  · cases hd; exact .answeredNr hp _ _
  · cases hd; exact .answeredNr hp _ _
  · cases hd; exact .called hp hn hpr (by rwa [reqParams_length hn] at hm)

/-- Everything a SEND_* phase does. -/
theorem send_effect {s t : State} (hp : s.phase = 0x6#4 ∨ s.phase = 0x7#4 ∨ s.phase = 0x8#4)
    {fetched : Except Result (List Byte)} (hstop : ∀ r, fetched = .error r → ∀ u, r ≠ .next u)
    (hi : ∀ bytes i, fetched = .ok bytes → decode .transmit bytes = .ok i → Sends s i)
    (h : runFetched .transmit fetched s = .next t) : StepEffect s t := by
  unfold runFetched at h
  split at h
  · exact absurd h (hstop _ rfl _)
  · split at h
    · cases h
    · rename_i _ bytes _ i hd
      have hs := hi bytes i rfl hd
      rw [exec_transmit hs.stage] at h
      have htx : (emitBase i s).txPort = s.txPort := by cases i <;> rfl
      obtain ⟨hw, he⟩ | ⟨later, hw, he⟩ | ⟨later, hw, he⟩ := emit_cases (encode i) (emitDone i) (emitBase i s)
      all_goals rw [htx] at hw; rw [he] at h; cases h
      · exact .noStatus hp i hs hw
      · exact .emitted hp i hs later hw
      · exact .failed hp i hs later hw

/-- MemRead never answers a next state. -/
theorem memRead_stop {a n : Nat} {s : State} {r : Result} (h : memRead a n s = .error r) (u : State) : r ≠ .next u := by
  unfold memRead at h
  repeat' (split at h)
  all_goals cases h
  all_goals simp

theorem fetchSingle_stop {s : State} (r : Result) (h : fetchSingle s = .error r) (u : State) : r ≠ .next u := by
  unfold fetchSingle at h
  split at h <;> cases h
  exact memRead_stop ‹_› u

theorem fetchFirst_stop {s : State} (r : Result) (h : fetchFirst s = .error r) (u : State) : r ≠ .next u := by
  unfold fetchFirst at h
  split at h <;> cases h
  exact memRead_stop ‹_› u

theorem fetchConsecutive_stop {s : State} (r : Result) (h : fetchConsecutive s = .error r) (u : State) : r ≠ .next u := by
  unfold fetchConsecutive at h
  split at h <;> cases h
  exact memRead_stop ‹_› u

/-- A single frame's fetched PCI byte has type 0 wherever its bytes decode. -/
theorem fetchSingle_sends {s : State} (hp : s.phase = 0x6#4) (bytes : List Byte) (i : Instr) (hf : fetchSingle s = .ok bytes)
    (hd : decode .transmit bytes = .ok i) : Sends s i := by
  obtain ⟨hst, hwf⟩ := decode_transmit_wf hd
  refine ⟨hst, hwf, fun _ => ?_, by simp [hp], by simp [hp]⟩
  unfold fetchSingle at hf
  split at hf
  · rename_i m hm
    cases hf
    have hlen := (memRead_eq_ok hm).2.1
    have hshort : m.length ≤ 7 := by
      match m, hd with
      | [], _ => simp
      | m0 :: rest, hd =>
        simp only [decode] at hd
        split at hd
        · cases hd
        · simp; omega
    refine ⟨m, hm, decode_single hd ?_⟩
    have h7 : s.rspLen.toNat ≤ 7 := by omega
    have : s.rspLen = BitVec.ofNat 12 s.rspLen.toNat := by simp
    rw [this]
    match s.rspLen.toNat, h7 with
    | 0, _ | 1, _ | 2, _ | 3, _ | 4, _ | 5, _ | 6, _ | 7, _ => decide
    | n + 8, h => omega
  · cases hf

theorem fetchFirst_sends {s : State} (hp : s.phase = 0x7#4) (bytes : List Byte) (i : Instr) (hf : fetchFirst s = .ok bytes)
    (hd : decode .transmit bytes = .ok i) : Sends s i := by
  obtain ⟨hst, hwf⟩ := decode_transmit_wf hd
  unfold fetchFirst at hf
  split at hf
  · rename_i m hm
    cases hf
    exact ⟨hst, hwf, by simp [hp], fun _ => ⟨m, hm, by simpa using decode_first hd⟩, by simp [hp]⟩
  · cases hf

theorem fetchConsecutive_sends {s : State} (hp : s.phase = 0x8#4) (bytes : List Byte) (i : Instr)
    (hf : fetchConsecutive s = .ok bytes) (hd : decode .transmit bytes = .ok i) : Sends s i := by
  obtain ⟨hst, hwf⟩ := decode_transmit_wf hd
  unfold fetchConsecutive at hf
  split at hf
  · rename_i m hm
    cases hf
    exact ⟨hst, hwf, by simp [hp], by simp [hp], fun _ => ⟨m, hm, decode_consecutive hd⟩⟩
  · cases hf

/-- The inversion of a step. -/
theorem step_effect {s t : State} (h : step s = .next t) : StepEffect s t := by
  obtain ⟨-, ⟨hr, rfl⟩ | ⟨-, p, hp, h⟩⟩ := step_inversion h
  · exact .reset hr
  cases p with
  | idle =>
    simp only [runPhase, acceptFrame] at h
    split at h
    · cases h; exact .noFrame hp ‹_›
    · split at h
      · cases h
      · cases h; rename_i hle; exact .accepted hp _ _ ‹_› (Nat.le_of_not_lt hle)
  | filter =>
    simp only [runPhase, filterFrame] at h
    split at h
    · cases h; exact .rightId hp ‹_›
    · cases h; exact .wrongId hp ‹_›
  | decode =>
    simp only [runPhase] at h
    split at h
    · cases h; exact .dropped hp _
    · unfold runFetched fetchReceived at h
      by_cases h8 : 8 < s.rxLen.toNat
      · simp [h8] at h
      · simp only [if_neg h8] at h
        split at h
        · cases h
        · rename_i i hd
          match hb : s.rxBytes, hd with
          | [], hd => simp [Sys2Proof.decode] at hd
          | [_], hd => simp [Sys2Proof.decode] at hd
          | b0 :: b1 :: rest, hd =>
            simp only [Sys2Proof.decode] at hd
            split at hd
            · cases hd
            · cases hd; exact exec_receive_effect hp b0 b1 rest (by omega) h
  | dispatch =>
    unfold runPhase runFetched fetchRequest at h
    by_cases h6 : 6 < s.reqNParam.toNat
    · simp [h6] at h
    · simp only [if_neg h6, decode_singleFrame s.reqSid (ps := s.reqParams) (by rw [reqParams_length (by omega)]; omega)] at h
      exact exec_service_effect hp (by omega) h
  | handler =>
    simp only [runPhase, takeAnswer] at h
    split at h
    · cases h; exact .noAnswer hp ‹_›
    · rename_i a later ha
      obtain ⟨reply, after⟩ := a
      obtain ⟨data, hd, hl, he⟩ | ⟨data, hd, hl, he⟩ | ⟨code, hd, he⟩ :=
        acceptReply_cases reply { s with hpPort := later, handlers := after } <;> subst hd <;> rw [he] at h <;> cases h
      · exact .oversized hp data after later ha hl
      · exact .positive hp data after later ha hl
      · exact .negative hp code after later ha
  | encode =>
    simp only [runPhase] at h
    obtain ⟨-, he⟩ | ⟨h1, h7, he⟩ | ⟨h8, he⟩ := chooseSegmentation_cases s <;> rw [he] at h <;> cases h
    · exact .single hp h1 h7
    · exact .multi hp h8
  | sendSF => exact send_effect (.inl hp) fetchSingle_stop (fetchSingle_sends hp) h
  | sendFF => exact send_effect (.inr (.inl hp)) fetchFirst_stop (fetchFirst_sends hp) h
  | sendCF => exact send_effect (.inr (.inr hp)) fetchConsecutive_stop (fetchConsecutive_sends hp) h

end Sys2Proof.Machine
end

