-- ==== Sys2Proof/Tests/Slice0.lean ====
section
/-! SUPPORT. Tests of the model. Expected values come from spec/: the worked examples and derived vectors of
95_test_vectors.md (E.., RX.., DP.., TX.., RA..) and the examples of the rules named; the last part holds one witness for
the hypotheses of each statement. -/

namespace Sys2Proof.Tests

open Sys2Proof Sys2Proof.Machine

/-- The next state, if there is one. -/
def after (r : Result) : Option State :=
  match r with
  | .next t => some t
  | _ => none

/-- The frames emitted so far. -/
def emitted (s : State) : List (List Byte) := s.txLog.map fun x => x.frame.data

/-- Reset, but in another phase. -/
def at' (p : Phase) : State := State.reset.setPhase p

/-- Reset with a received frame on the request identifier, at DECODE. -/
def received (data : List Byte) : State := placeReceived data State.reset

/-- Reset with a decoded request, at DISPATCH. -/
def requested (sid : Byte) (params : List Byte) : State := (State.reset.latchRequest sid params).setPhase .dispatch

/-- An answer that leaves the environment as it is. -/
def answer (r : Reply) : HandlerAnswer := { reply := r, after := State.reset.handlers }

/-- Reset with a request waiting in HANDLER and the handler's answer at the port. -/
def answered (sid : Byte) (params : List Byte) (r : Reply) : State :=
  { (State.reset.latchRequest sid params).setPhase .handler with hpPort := [answer r] }

/-- Reset with a message in RSP_BUF and answers at the TX port. -/
def sending (p : Phase) (m : List Byte) (tx : List TxStatus) : State :=
  { (State.reset.setRspLen m.length).setPhase p with rspBuf := Memory.writeBytes [] 0 m, txPort := tx }

/-- The three fields a drop is told by. -/
def ended (r : Result) : Option (BitVec 4 × BitVec 4 × List (List Byte)) :=
  (after r).map fun t => (t.phase, t.lastOutcome, emitted t)

/-- What DECODE leaves: the phase, REQ_SID and the parameters. -/
def extracted (r : Result) : Option (BitVec 4 × Byte × List Byte) :=
  (after r).map fun t => (t.phase, t.reqSid, t.reqParams)

/-- The message in RSP_BUF and the outcome to record. -/
def message (r : Result) : Option (Option (List Byte) × TxnOutcome) :=
  (after r).map fun t => (t.rspBuf.readBytes 0 t.rspLen.toNat, t.out)

/-! ## WellFormed refuses the ill-formed -/

theorem test_wf_rxSF : (Instr.rxSF 7 0x22 [0, 0, 0, 0, 0, 0, 0]).wf = false := by decide
theorem test_wf_rxFF : (Instr.rxFF 8 [0, 0, 0, 0, 0, 0, 0]).wf = false := by decide
theorem test_wf_rxCF_empty : (Instr.rxCF 1 []).wf = false := by decide
theorem test_wf_rxCF_long : (Instr.rxCF 1 [0, 0, 0, 0, 0, 0, 0, 0]).wf = false := by decide
theorem test_wf_rxOther3 : (Instr.rxOther3 0 []).wf = false := by decide
theorem test_wf_rxOther4to7 : (Instr.rxOther4to7 0 0 []).wf = false := by decide
theorem test_wf_rxOther8toF : (Instr.rxOther8toF 0 0 [0, 0, 0, 0, 0, 0, 0, 0]).wf = false := by decide
theorem test_wf_params :
    [Instr.dsc, Instr.er, Instr.cdtci, Instr.rdbi, Instr.rmba, Instr.sa, Instr.sidUnsupported 0x3E].all
      (fun row => !(row [0, 0, 0, 0, 0, 0, 0]).wf) = true := by decide
theorem test_wf_servedSid : (Instr.sidUnsupported 0x22 []).wf = false := by decide
theorem test_wf_txSF_long : (Instr.txSF 0x62 [0, 0, 0, 0, 0, 0, 0]).wf = false := by decide
theorem test_wf_txSF_isTxNR : (Instr.txSF 0x7F [0x11, 0x33]).wf = false := by decide
theorem test_wf_txFF_short : (Instr.txFF 7 [0, 0, 0, 0, 0, 0]).wf = false := by decide
theorem test_wf_txFF_data : (Instr.txFF 8 [0, 0, 0, 0, 0]).wf = false := by decide
theorem test_wf_txCF_seq : (Instr.txCF 0 [0]).wf = false := by decide
theorem test_wf_txCF_data : (Instr.txCF 1 []).wf = false := by decide

/-! ## Decode: frames written out from the encodings of 30_encoding.md -/

-- R45: 0000 LLLL, then the SID
theorem test_decode_rxSF : decode .receive [0b00000010, 0x10, 0x01] = .ok (.rxSF 2 0x10 [0x01]) := by decide
-- R46: 0001 hhhh, llllllll
theorem test_decode_rxFF :
    decode .receive [0b00011111, 0b11111110, 0, 0, 0, 0, 0, 0] = .ok (.rxFF 0xFFE [0, 0, 0, 0, 0, 0]) := by decide
-- R47: 0010 NNNN
theorem test_decode_rxCF : decode .receive [0b00101111, 0x01] = .ok (.rxCF 15 [0x01]) := by decide
theorem test_decode_rxOther3 : decode .receive [0b00110000, 0x00, 0x00] = .ok (.rxOther3 0 [0x00, 0x00]) := by decide
theorem test_decode_rxOther4to7 :
    decode .receive [0b01101010, 0x55] = .ok (.rxOther4to7 2 0xA [0x55]) := by decide
theorem test_decode_rxOther8toF :
    decode .receive [0b11110010, 0x10, 0x01] = .ok (.rxOther8toF 7 2 [0x10, 0x01]) := by decide
-- R51: byte 1 selects the row, the parameters are bytes 2..L
theorem test_decode_dsc : decode .dispatch [0x02, 0x10, 0x01] = .ok (.dsc [0x01]) := by decide
theorem test_decode_er : decode .dispatch [0x02, 0x11, 0x01, 0xAA, 0xAA, 0xAA, 0xAA, 0xAA] = .ok (.er [0x01]) := by decide
theorem test_decode_cdtci :
    decode .dispatch [0x04, 0x14, 0xFF, 0xFF, 0xFF] = .ok (.cdtci [0xFF, 0xFF, 0xFF]) := by decide
theorem test_decode_rdbi : decode .dispatch [0x03, 0x22, 0xF1, 0x90] = .ok (.rdbi [0xF1, 0x90]) := by decide
theorem test_decode_rmba :
    decode .dispatch [0x07, 0x23, 0x14, 0x00, 0x00, 0x10, 0x00, 0x04]
      = .ok (.rmba [0x14, 0x00, 0x00, 0x10, 0x00, 0x04]) := by decide
theorem test_decode_sa : decode .dispatch [0x02, 0x27, 0x03] = .ok (.sa [0x03]) := by decide
theorem test_decode_sidUnsupported : decode .dispatch [0x01, 0x7F] = .ok (.sidUnsupported 0x7F []) := by decide
theorem test_decode_txSF : decode .transmit [0b00000010, 0x51, 0x03] = .ok (.txSF 0x51 [0x03]) := by decide
theorem test_decode_txFF :
    decode .transmit [0b00010001, 0x00, 1, 2, 3, 4, 5, 6] = .ok (.txFF 256 [1, 2, 3, 4, 5, 6]) := by decide
theorem test_decode_txCF : decode .transmit [0b00100110, 1, 2, 3, 4, 5] = .ok (.txCF 6 [1, 2, 3, 4, 5]) := by decide
theorem test_decode_txNR : decode .transmit [0x03, 0x7F, 0x11, 0x33] = .ok (.txNR 0x11 0x33) := by decide

-- R53, R59: what is no instruction
theorem test_decode_tooShort : decode .receive [0x01] = .error .tooShort := by decide
theorem test_decode_tooLong : decode .receive [0, 0, 0, 0, 0, 0, 0, 0, 0] = .error .tooLong := by decide
theorem test_decode_notASingleFrame : decode .dispatch [0x21, 0x01] = .error .notASingleFrame := by decide
theorem test_decode_noFlowControl : decode .transmit [0x30, 0x00, 0x00] = .error .noOutboundFormat := by decide
theorem test_decode_paddedOutbound : decode .transmit [0x01, 0x54, 0x00] = .error .singleFrameLength := by decide
theorem test_decode_shortTotal : decode .transmit [0x10, 0x07, 0, 0, 0, 0, 0, 0] = .error .firstFrameLength := by decide
theorem test_decode_sequenceZero : decode .transmit [0x20, 0x00] = .error .sequenceZero := by decide

/-! ## Table words (opcode_table.json's key, byte 0 in bits 15..8) -/

theorem test_word_rows :
    [0x0854, 0x1007, 0x2000, 0x3000, 0x4000, 0x8000].map (decodeTableWord 16)
      = [some (.rxSF 8 0x54 [0, 0, 0, 0, 0, 0]), some (.rxFF 7 [0, 0, 0, 0, 0, 0]),
         some (.rxCF 0 [0, 0, 0, 0, 0, 0, 0]), some (.rxOther3 0 [0, 0, 0, 0, 0, 0, 0]),
         some (.rxOther4to7 0 0 [0, 0, 0, 0, 0, 0, 0]), some (.rxOther8toF 0 0 [0, 0, 0, 0, 0, 0, 0])] := by decide
theorem test_word_services :
    [0x0210, 0x0211, 0x0414, 0x0322, 0x0723, 0x0227, 0x013E].map (decodeTableWord 16)
      = [some (.dsc [0]), some (.er [0]), some (.cdtci [0, 0, 0]), some (.rdbi [0, 0]),
         some (.rmba [0, 0, 0, 0, 0, 0]), some (.sa [0]), some (.sidUnsupported 0x3E [])] := by decide
theorem test_word_outbound :
    [0x0154, 0x1014, 0x2100, 0x037F].map (decodeTableWord 16)
      = [some (.txSF 0x54 []), some (.txFF 20 [0, 0, 0, 0, 0, 0]), some (.txCF 1 [0, 0, 0, 0, 0, 0, 0]),
         some (.txNR 0 0)] := by decide
/-- A placed word is run by the very next step, each in the phase of its stage. -/
theorem test_withFetchWord :
    [0x0854, 0x1007, 0x2000, 0x3000, 0x4000, 0x8000, 0x0210, 0x0723, 0x013E, 0x0154, 0x1014, 0x2100, 0x037F].map
        (fun w => (after (step (State.reset.withFetchWord 16 w))).map fun t => t.phase)
      = [some 0, some 0, some 0, some 0, some 0, some 0, some 4, some 4, some 5, some 6, some 7, some 8, some 6] := by
  decide

/-! ## Reset (R26, R126) -/

theorem test_reset_status : State.reset.status = 0 ∧ State.reset.phase = 0 ∧ State.reset.rxReady = true := by decide
theorem test_reset_table :
    [0x10, 0x11, 0x14, 0x22, 0x23, 0x27, 0x3E].map (fun sid => minEntry State.reset.minParamLen sid)
      = [0b1001, 0b1001, 0b1011, 0b1010, 0b1001, 0b1001, 0b0000] := by decide
theorem test_reset_waits : (after (step State.reset)).map (fun t => (t.phase, t.lastOutcome)) = some (0, 0) := by decide

/-! ## Acceptance and filter -/

-- RX1, RX18
theorem test_filter_wrongId : ended (step { at' .filter with rxId := 0x001 }) = some (0, 0x1, []) := by decide
theorem test_accept_loads :
    (after (step { State.reset with rxPort := [{ id := 0x7DF, data := [0x02, 0x10, 0x01] }] })).map
      (fun t => (t.rxId, t.rxLen, t.rxBytes, t.rxPort)) = some (0x7DF, 3, [0x02, 0x10, 0x01], []) := by decide
-- D11: more than eight bytes is no classic frame
theorem test_accept_refusesLong :
    after (step { State.reset with rxPort := [{ id := 0, data := List.replicate 9 0 }] }) = none := by decide

/-! ## RX.SF (RX2, RX3, RX8..RX17, RX19, RX20) -/

theorem test_rx2_empty : ended (step (received [])) = some (0, 0x2, []) := by decide
theorem test_rx19_short : ended (step (received [0x1F])) = some (0, 0x2, []) := by decide
theorem test_rx8_lengthExceeds : ended (step (received [0x03, 0x22, 0xF1])) = some (0, 0x4, []) := by decide
theorem test_rx13_zeroLength : ended (step (received [0x00, 0x10, 0x01])) = some (0, 0x5, []) := by decide
theorem test_rx11_wholeFrame :
    extracted (step { received [0x08, 0x01, 0x02, 0x03, 0x04, 0x05, 0x06, 0x07] with cfgPolicy := 0b10 })
      = some (0x3, 0x01, [0x02, 0x03, 0x04, 0x05, 0x06, 0x07]) := by decide
theorem test_rx14_dispatchByte1 :
    extracted (step { received [0x00, 0x10, 0x01] with cfgPolicy := 0b01 }) = some (0x3, 0x10, []) := by decide
theorem test_rx16_padding :
    extracted (step (received [0x02, 0x11, 0x01, 0xAA, 0xAA, 0xAA, 0xAA, 0xAA])) = some (0x3, 0x11, [0x01]) := by decide
theorem test_rx20_wholeFrame :
    extracted (step { received [0x05, 0x14, 0xFF, 0xFF, 0xFF] with cfgPolicy := 0b10 })
      = some (0x3, 0x14, [0xFF, 0xFF, 0xFF]) := by decide

/-! ## RX.FF, RX.CF, RX.OTHER (RX4..RX7) -/

theorem test_rx4_firstFrame :
    ended (step (received [0x10, 0x14, 0x2E, 0xF1, 0x90, 0x00, 0x00, 0x00])) = some (0, 0x3, []) := by decide
theorem test_rx5_consecutiveFrame : ended (step (received [0x21, 0x01, 0x02])) = some (0, 0x3, []) := by decide
theorem test_rx6_type3 : ended (step (received [0x30, 0x00, 0x00])) = some (0, 0x3, []) := by decide
theorem test_rx_type6 : ended (step (received [0x62, 0x10, 0x01])) = some (0, 0x3, []) := by decide
theorem test_rx7_typeF : ended (step (received [0xF2, 0x10, 0x01])) = some (0, 0x3, []) := by decide

/-! ## The handler contract (44_handler_port.md) -/

/-- An environment of session 0x01 with a seed issued. -/
def seeded (session seed1 : Byte) (seed2 prev2 : BitVec 16) : HandlerState :=
  { HandlerState.atStart 0 with
    session := session, lastSeed1 := seed1, lastSeed2 := seed2, prevSeed2 := prev2, issued01 := true }

-- E9: after the seed 0xFD comes 0xFF, after 0xFF 0x01; the keys are seed + 1
theorem test_e9_seeds :
    (storeSeed (seeded 0x01 0xFD 0 0) ⟨0x55, 0⟩).lastSeed1 = 0xFF ∧ (storeSeed (seeded 0x01 0xFF 0 0) ⟨0x55, 0⟩).lastSeed1 = 0x01
      ∧ keyMatches (seeded 0x01 0xFD 0 0) [0xFE] = true ∧ keyMatches (seeded 0x01 0xFF 0 0) [0x00] = true := by decide
-- R107, R30: session 0x04's key is seed XOR prev_seed, big-endian
theorem test_key_bigEndian :
    keyMatches (seeded 0x04 0 0x1234 0x0F00) [0x1D, 0x34] = true
      ∧ keyMatches (seeded 0x04 0 0x1234 0x0F00) [0x34, 0x1D] = false := by decide

/-! ## The dispatch rows -/

-- DP1, DP5..DP10
theorem test_dp1_unsupported :
    message (step (requested 0x3E [])) = some (some [0x7F, 0x3E, 0x11], .respServiceNotSupported) := by decide
theorem test_dp6_rdbi : message (step (requested 0x22 [0xF1])) = some (some [0x7F, 0x22, 0x13], .respIncorrectLength) := by
  decide
theorem test_dp7_cdtci :
    message (step (requested 0x14 [0xFF, 0xFF])) = some (some [0x7F, 0x14, 0x13], .respIncorrectLength) := by decide
theorem test_dp8_sa : message (step (requested 0x27 [])) = some (some [0x7F, 0x27, 0x13], .respIncorrectLength) := by
  decide
theorem test_dp9_rmba : message (step (requested 0x23 [])) = some (some [0x7F, 0x23, 0x13], .respIncorrectLength) := by
  decide
theorem test_dp10_er : message (step (requested 0x11 [])) = some (some [0x7F, 0x11, 0x13], .respIncorrectLength) := by
  decide
theorem test_rx15_dsc : message (step (requested 0x10 [])) = some (some [0x7F, 0x10, 0x13], .respIncorrectLength) := by
  decide
/-- Each served SID with its default minimum of parameters reaches its handler (R17, R73). -/
theorem test_calls :
    [(0x10, 1), (0x11, 1), (0x14, 3), (0x22, 2), (0x23, 1), (0x27, 1)].map
        (fun c : Byte × Nat => (after (step (requested c.1 (List.replicate c.2 0xA5)))).map
          fun t => (t.phase, t.hpLog.map fun r => (r.sid, r.params)))
      = [(0x10, 1), (0x11, 1), (0x14, 3), (0x22, 2), (0x23, 1), (0x27, 1)].map
        (fun c : Byte × Nat => some (0x4#4, [(c.1, List.replicate c.2 0xA5#8)])) := by decide

/-! ## Replies -/

-- E1
theorem test_e1_positive :
    message (step (answered 0x10 [0x01] (.positive [0x01, 0x00, 0x32, 0x13, 0x88])))
      = some (some [0x50, 0x01, 0x00, 0x32, 0x13, 0x88], .respPositive) := by decide
-- E7, DP16: (SID + 0x40) mod 256
theorem test_positiveSids :
    [0x10, 0x22, 0x23, 0x27, 0x11, 0x14, 0xC5].map positiveSid
      = [0x50#8, 0x62, 0x63, 0x67, 0x51, 0x54, 0x05] := by decide
-- DP17
theorem test_dp17_anyNrc :
    message (step (answered 0x10 [0x04] (.negative 0xFE))) = some (some [0x7F, 0x10, 0xFE], .respNegative) := by decide
-- DP16
theorem test_dp16_reconfigured :
    (after (step { requested 0xC5 [] with minParamLen := [(0xC5, 0b1000)] })).map (fun t => (t.phase, t.hpLog))
      = some (0x4, [{ sid := 0xC5, params := [] }]) := by decide

/-! ## Transmit -/

-- TX1, TX2, TX3
theorem test_tx1 : ended (step (sending .sendSF [0x54] [.ok])) = some (0, 0, [[0x01, 0x54]]) := by decide
theorem test_tx2_txNR : ended (step (sending .sendSF [0x7F, 0x11, 0x33] [.ok])) = some (0, 0, [[0x03, 0x7F, 0x11, 0x33]]) := by
  decide
theorem test_tx3_choice : (after (step (sending .encode [1, 2, 3, 4, 5, 6, 7] []))).map (fun t => t.phase) = some 0x6 := by
  decide
-- TX4
theorem test_tx4_choice :
    (after (step (sending .encode [1, 2, 3, 4, 5, 6, 7, 8] []))).map (fun t => t.phase) = some 0x7 := by decide
theorem test_tx4_first :
    (after (step (sending .sendFF [1, 2, 3, 4, 5, 6, 7, 8] [.ok]))).map
      (fun t => (t.phase, t.txOff, t.txSeq, emitted t)) = some (0x8, 6, 1, [[0x10, 0x08, 1, 2, 3, 4, 5, 6]]) := by decide
theorem test_tx4_consecutive :
    ended (step { sending .sendCF [1, 2, 3, 4, 5, 6, 7, 8] [.ok] with txOff := 6, txSeq := 1 })
      = some (0, 0, [[0x21, 7, 8]]) := by decide
-- TX9: 15 is followed by 1
theorem test_tx9_seqWraps : (nextSeq 15, nextSeq 1, nextSeq 14) = (1#4, 2#4, 15#4) := by decide
-- TX13
theorem test_tx13_abort :
    (after (step { sending .sendCF (List.replicate 20 0xA5) [.fail, .ok] with txOff := 6, txSeq := 1 })).map
      (fun t => (t.phase, t.lastOutcome, t.faultBit, t.txPort)) = some (0, 0xB, false, [.ok]) := by decide

/-! ## EncodeMessage and Reassemble -/

-- TX8 and E3's lengths
theorem test_tx8 :
    encodeMessage [0, 1, 2, 3, 4, 5, 6, 7, 8, 9, 10, 11, 12, 13, 14, 15, 16, 17, 18, 19]
      = [[0x10, 0x14, 0, 1, 2, 3, 4, 5], [0x21, 6, 7, 8, 9, 10, 11, 12], [0x22, 13, 14, 15, 16, 17, 18, 19]] := by decide
-- TX6
theorem test_tx6 :
    encodeMessage [0, 1, 2, 3, 4, 5, 6, 7, 8, 9, 10, 11, 12, 13]
      = [[0x10, 0x0E, 0, 1, 2, 3, 4, 5], [0x21, 6, 7, 8, 9, 10, 11, 12], [0x22, 13]] := by decide
-- RA1, RA3..RA9, RA11
theorem test_ra1 : reassemble [[0x01, 0x54]] = .ok [0x54] := by decide
theorem test_ra3 : reassemble [[0x10, 0x08, 0, 1, 2, 3, 4, 5], [0x22, 6, 7]] = .error .badSeq := by decide
theorem test_ra4 : reassemble [[0x10, 0x08, 0, 1, 2, 3, 4, 5], [0x21, 6, 7, 0]] = .error .badCFLength := by decide
theorem test_ra5 :
    reassemble [[0x10, 0x0E, 0, 1, 2, 3, 4, 5], [0x21, 6, 7, 8, 9, 10, 11, 12]] = .error .incomplete := by decide
theorem test_ra6 : reassemble [[0x00, 0x10]] = .error .zeroLength := by decide
theorem test_ra7 : reassemble [[0x30, 0x00, 0x00]] = .error .badType := by decide
theorem test_ra8 : reassemble [] = .error .empty := by decide
theorem test_ra9 : reassemble [[0x10, 0x05, 0, 1, 2, 3, 4, 5]] = .error .badFF := by decide
-- R95's text, D19: padding is rejected, and so is a length over 7
theorem test_reassemble_strict :
    [reassemble [[0x01, 0x54, 0xAA]], reassemble [[0x08, 1, 2, 3, 4, 5, 6, 7, 8]]].all
      (fun r => match r with | .ok _ => false | .error _ => true) = true := by decide
theorem test_ra11 : reassemble [[0x01, 0x54], [0x21, 0x00]] = .error .trailingFrames := by decide

/-! ## Witnesses: states and operands that meet the hypotheses of each statement together -/

/-- One well-formed instruction per constructor, at boundary values of its fields. -/
def samples : List Instr :=
  [.rxSF 0 0x00 [], .rxSF 15 0xFF [1, 2, 3, 4, 5, 6], .rxFF 0 [], .rxFF 0xFFF [1, 2, 3, 4, 5, 6], .rxCF 0 [1],
   .rxCF 15 [1, 2, 3, 4, 5, 6, 7], .rxOther3 15 [1], .rxOther4to7 3 0 [1], .rxOther8toF 7 15 [1, 2, 3, 4, 5, 6, 7],
   .dsc [], .er [1], .cdtci [1, 2, 3], .rdbi [1, 2], .rmba [1, 2, 3, 4, 5, 6], .sa [1, 2, 3]]

/-- The rest of them. -/
def moreSamples : List Instr :=
  [.sidUnsupported 0x7F [], .sidUnsupported 0x00 [1, 2, 3, 4, 5, 6], .txSF 0x54 [], .txSF 0x7F [1],
   .txSF 0x62 [1, 2, 3, 4, 5, 6], .txFF 8 [1, 2, 3, 4, 5, 6], .txFF 0xFFF [1, 2, 3, 4, 5, 6], .txCF 1 [1],
   .txCF 15 [1, 2, 3, 4, 5, 6, 7], .txNR 0x00 0xFF]

theorem witness_DecodeInvertsEncode : samples.all Instr.wf = true ∧ moreSamples.all Instr.wf = true := by decide

theorem witness_EncodeInvertsDecode :
    Stage.receive ≠ .dispatch ∧ decode .receive [0x21, 0x01, 0x02] = .ok (.rxCF 1 [0x01, 0x02])
      ∧ Stage.transmit ≠ .dispatch ∧ decode .transmit [0x03, 0x7F, 0x11, 0x33] = .ok (.txNR 0x11 0x33) := by decide

theorem witness_DecodedInstructionsAreWellFormed :
    decode .dispatch [0x02, 0x10, 0x01] = .ok (.dsc [0x01]) ∧ decode .receive [0x10, 0x08] = .ok (.rxFF 8 [])
      ∧ decode .transmit [0x2F, 0x01] = .ok (.txCF 15 [0x01]) := by decide

/-- The first byte of each clause, at both ends of its range. -/
theorem witness_PrimaryMapClassifiesEveryFrame :
    [0x00#8, 0x0F].all (fun b => b.toNat / 16 = 0) ∧ [0x10#8, 0x1F].all (fun b => b.toNat / 16 = 1)
      ∧ [0x20#8, 0x2F].all (fun b => b.toNat / 16 = 2) ∧ [0x30#8, 0x3F].all (fun b => b.toNat / 16 = 3)
      ∧ [0x40#8, 0x7F].all (fun b => 4 ≤ b.toNat / 16 ∧ b.toNat / 16 ≤ 7)
      ∧ [0x80#8, 0xFF].all (fun b => 8 ≤ b.toNat / 16) ∧ ([1, 2, 3, 4, 5, 6] : List Byte).length ≤ 6 := by decide

theorem witness_DecodePhaseRunsReceivedInstruction :
    runsIn .decode (received [0x02, 0x10]) ∧ 2 ≤ (received [0x02, 0x10]).rxLen.toNat
      ∧ (received [0x02, 0x10]).rxLen.toNat ≤ 8 ∧ decode .receive (received [0x02, 0x10]).rxBytes = .ok (.rxSF 2 0x10 []) := by
  unfold runsIn; decide

theorem witness_DispatchPhaseRunsServiceRow :
    runsIn .dispatch (requested 0x23 [1, 2, 3, 4, 5, 6]) ∧ (requested 0x23 [1, 2, 3, 4, 5, 6]).reqNParam.toNat ≤ 6 := by
  unfold runsIn; decide

theorem witness_SendPhasesRunOutboundInstruction_single :
    let s := sending .sendSF [0x54] [.ok]
    s.configurationLegal = true ∧ s.resetLine = false ∧ s.rspLen.toNat = 1 ∧ s.rspBuf.readBytes 0 1 = some [0x54]
      ∧ s.phase = 0x6#4 ∧ decode .transmit [0x01, 0x54] = .ok (.txSF 0x54 []) := by decide

theorem witness_SendPhasesRunOutboundInstruction_first :
    let s := sending .sendFF [1, 2, 3, 4, 5, 6, 7, 8] [.ok]
    s.configurationLegal = true ∧ s.resetLine = false ∧ s.rspLen.toNat = 8
      ∧ s.rspBuf.readBytes 0 8 = some [1, 2, 3, 4, 5, 6, 7, 8] ∧ s.phase = 0x7#4
      ∧ decode .transmit [0x10, 0x08, 1, 2, 3, 4, 5, 6] = .ok (.txFF 8 [1, 2, 3, 4, 5, 6]) := by decide

theorem witness_SendPhasesRunOutboundInstruction_consecutive :
    let s := { sending .sendCF [1, 2, 3, 4, 5, 6, 7, 8] [.ok] with txOff := 6, txSeq := 1 }
    s.configurationLegal = true ∧ s.resetLine = false ∧ s.rspLen.toNat = 8
      ∧ s.rspBuf.readBytes 0 8 = some [1, 2, 3, 4, 5, 6, 7, 8] ∧ s.phase = 0x8#4 ∧ s.txOff.toNat ≤ 8
      ∧ decode .transmit [0x21, 7, 8] = .ok (.txCF 1 [7, 8]) := by decide

theorem witness_PlacedWordIsRunByTheNextStep :
    State.reset.configurationLegal = true ∧ State.reset.resetLine = false
      ∧ decodeTableWord 16 0x0210 = some (.dsc [0]) ∧ decodeTableWord 16 0x2F00 = some (.txCF 15 [0, 0, 0, 0, 0, 0, 0]) := by
  decide

/-- A frame of each boundary length offered in IDLE; a step that is not in IDLE. -/
theorem witness_AcceptanceLatchesTheFrame :
    (runsIn .idle { State.reset with rxPort := [{ id := 0, data := [] }] } ∧ ([] : List Byte).length ≤ 8)
      ∧ (runsIn .idle { State.reset with rxPort := [{ id := 0x7FF, data := [1, 2, 3, 4, 5, 6, 7, 8] }] }
        ∧ ([1, 2, 3, 4, 5, 6, 7, 8] : List Byte).length ≤ 8)
      ∧ (∃ t, step (at' .filter) = .next t) ∧ (at' .filter).phase ≠ 0x0#4 :=
  ⟨by unfold runsIn; decide, by unfold runsIn; decide, ⟨_, rfl⟩, by decide⟩

theorem witness_FilterComparesTheIdentifier :
    (runsIn .filter { at' .filter with rxId := 0x400 } ∧ { at' .filter with rxId := 0x400 }.rxId ≠ (at' .filter).cfgReqId)
      ∧ runsIn .filter (at' .filter) ∧ (at' .filter).rxId = (at' .filter).cfgReqId := by unfold runsIn; decide

theorem witness_ShortFramesAreDropped :
    (runsIn .decode (received []) ∧ (received []).rxLen.toNat < 2)
      ∧ runsIn .decode (received [0x1F]) ∧ (received [0x1F]).rxLen.toNat < 2 := by unfold runsIn; decide

theorem witness_NonSingleFramesAreDropped :
    (runsIn .decode (received [0x10, 0x00]) ∧ 2 ≤ (received [0x10, 0x00]).rxLen.toNat
      ∧ (received [0x10, 0x00]).rxLen.toNat ≤ 8 ∧ (received [0x10, 0x00]).rxData[0].toNat / 16 ≠ 0)
      ∧ (received [0xFF, 0x00]).rxData[0].toNat / 16 ≠ 0 := by unfold runsIn; decide

/-- Both bases, one byte over the available ones. -/
theorem witness_DeclaredLengthIsChecked :
    ((0b00#2).toNat / 2 = 0 ∧ (2 + ([] : List Byte).length) - 1 < (2#4).toNat)
      ∧ (0b10#2).toNat / 2 ≠ 0 ∧ 2 + ([] : List Byte).length < (3#4).toNat := by decide

theorem witness_ZeroLengthFollowsThePolicy :
    State.reset.cfgPolicy.toNat % 2 = 0 ∧ { State.reset with cfgPolicy := 0b11 }.cfgPolicy.toNat % 2 = 1 := by decide

/-- The shortest and the longest accepted frames, under both bases. -/
theorem witness_SingleFrameIsExtracted :
    (([] : List Byte).length ≤ 6 ∧ 1 ≤ (1#4).toNat ∧ State.reset.cfgPolicy.toNat / 2 = 0 ∧ (1#4).toNat ≤ (2 + 0) - 1)
      ∧ ([1, 2, 3, 4, 5, 6] : List Byte).length ≤ 6 ∧ 1 ≤ (8#4).toNat
      ∧ { State.reset with cfgPolicy := 0b10 }.cfgPolicy.toNat / 2 ≠ 0 ∧ (8#4).toNat ≤ 2 + 6 := by decide

/-- One state per drop cause; the causes of a state are ordered by the if-chain. -/
theorem witness_FirstDropCauseIsRecorded :
    (runsIn .filter { at' .filter with rxId := 1 } ∧ (at' .filter).rxLen.toNat ≤ 8
      ∧ { at' .filter with rxId := 1 }.rxId ≠ (at' .filter).cfgReqId)
      ∧ (runsIn .filter (at' .filter) ∧ (at' .filter).rxLen.toNat < 2)
      ∧ (runsIn .filter ((received [0x10, 0x08]).setPhase .filter) ∧ (received [0x10, 0x08]).rxData[0].toNat / 16 ≠ 0)
      ∧ (runsIn .filter ((received [0x02, 0x10]).setPhase .filter)
        ∧ (received [0x02, 0x10]).rxLen.toNat - 1 < (received [0x02, 0x10]).rxData[0].toNat % 16)
      ∧ (runsIn .filter ((received [0x00, 0x10]).setPhase .filter)
        ∧ (received [0x00, 0x10]).rxData[0].toNat % 16 = 0 ∧ (received [0x00, 0x10]).cfgPolicy.toNat % 2 = 0) := by
  unfold runsIn; decide

theorem witness_AbsentSidGetsServiceNotSupported :
    serviceRow (.sidUnsupported 0x3E []) 0x3E [] ∧ entryPresent (minEntry State.reset.minParamLen 0x3E) = false
      ∧ serviceRow (.dsc [0x01]) 0x10 [0x01]
      ∧ entryPresent (minEntry { State.reset with minParamLen := [] }.minParamLen 0x10) = false := by
  unfold serviceRow; decide

theorem witness_ShortRequestGetsIncorrectLength :
    serviceRow (.cdtci [0xFF, 0xFF]) 0x14 [0xFF, 0xFF] ∧ entryPresent (minEntry State.reset.minParamLen 0x14) = true
      ∧ ([0xFF, 0xFF] : List Byte).length < entryMin (minEntry State.reset.minParamLen 0x14) := by
  unfold serviceRow; decide

/-- Each row with as many parameters as its default minimum asks, and a SID that a reconfigured table adds. -/
theorem witness_ServiceRowsCallTheHandler :
    serviceRow (.dsc [1]) 0x10 [1] ∧ serviceRow (.er [1]) 0x11 [1] ∧ serviceRow (.cdtci [1, 2, 3]) 0x14 [1, 2, 3]
      ∧ serviceRow (.rdbi [1, 2]) 0x22 [1, 2] ∧ serviceRow (.rmba [1]) 0x23 [1] ∧ serviceRow (.sa [1]) 0x27 [1]
      ∧ serviceRow (.sidUnsupported 0xC5 []) 0xC5 []
      ∧ [(0x10#8, 1), (0x11, 1), (0x14, 3), (0x22, 2), (0x23, 1), (0x27, 1)].all (fun c =>
          entryPresent (minEntry State.reset.minParamLen c.1) && entryMin (minEntry State.reset.minParamLen c.1) ≤ c.2)
      ∧ entryPresent (minEntry [(0xC5#8, 0b1000#4)] 0xC5) = true ∧ entryMin (minEntry [(0xC5#8, 0b1000#4)] 0xC5) = 0 :=
  ⟨.inl ⟨rfl, rfl⟩, .inr (.inl ⟨rfl, rfl⟩), .inr (.inr (.inl ⟨rfl, rfl⟩)), .inr (.inr (.inr (.inl ⟨rfl, rfl⟩))),
    .inr (.inr (.inr (.inr (.inl ⟨rfl, rfl⟩)))), .inr (.inr (.inr (.inr (.inr (.inl ⟨rfl, rfl⟩))))),
    .inr (.inr (.inr (.inr (.inr (.inr rfl))))), by decide, by decide, by decide⟩

theorem witness_PositiveReplyIsAssembled :
    (runsIn .handler (answered 0x14 [1, 2, 3] (.positive [])) ∧ ([] : List Byte).length ≤ 4094)
      ∧ runsIn .handler (answered 0x22 [0xF1, 0x90] (.positive (List.replicate 4094 0)))
      ∧ (List.replicate 4094 (0 : Byte)).length ≤ 4094 := by
  refine ⟨by unfold runsIn; decide, ⟨rfl, rfl, rfl⟩, ?_⟩
  rw [List.length_replicate]

theorem witness_NegativeReplyPassesThrough :
    runsIn .handler (answered 0x10 [0x04] (.negative 0xFE))
      ∧ (answered 0x10 [0x04] (.negative 0xFE)).hpPort = answer (.negative 0xFE) :: [] :=
  ⟨by unfold runsIn; decide, rfl⟩

theorem witness_OversizedReplyRaisesTheFault :
    runsIn .handler (answered 0x22 [0xF1, 0x90] (.positive (List.replicate 4095 0)))
      ∧ 4094 < (List.replicate 4095 (0 : Byte)).length := by
  refine ⟨⟨rfl, rfl, rfl⟩, ?_⟩
  rw [List.length_replicate]; omega

theorem inv_reset : Inv State.reset :=
  ⟨by decide, ⟨.idle, by decide, trivial⟩, by decide, by decide, by decide, by decide, fun _ hf => nomatch hf⟩

/-- The invariant of a reset state with a one-byte message, in SEND_SF. -/
theorem inv_sendSF : Inv (sending .sendSF [0x54] []) :=
  ⟨by decide, ⟨.sendSF, by decide, by unfold phaseReady messageStored; decide⟩, by decide, by decide, by decide, by decide,
    fun _ hf => nomatch hf⟩

theorem inv_sendFF : Inv (sending .sendFF [1, 2, 3, 4, 5, 6, 7, 8] []) :=
  ⟨by decide, ⟨.sendFF, by decide, by unfold phaseReady messageStored; decide⟩, by decide, by decide, by decide, by decide,
    fun _ hf => nomatch hf⟩

theorem inv_sendCF : Inv { sending .sendCF [1, 2, 3, 4, 5, 6, 7, 8] [] with txOff := 6, txSeq := 1 } :=
  ⟨by decide, ⟨.sendCF, by decide, by unfold phaseReady messageStored; decide⟩, by decide, by decide, by decide, by decide,
    fun _ hf => nomatch hf⟩

theorem inv_encode : Inv (sending .encode [0x54] []) :=
  ⟨by decide, ⟨.encode, by decide, by unfold phaseReady messageStored; decide⟩, by decide, by decide, by decide, by decide,
    fun _ hf => nomatch hf⟩

theorem inv_handler : Inv (at' .handler) :=
  ⟨by decide, ⟨.handler, by decide, trivial⟩, by decide, by decide, by decide, by decide, fun _ hf => nomatch hf⟩

theorem witness_BlockWaitsForTheEnvironment :
    (Inv State.reset ∧ State.reset.resetLine = false ∧ State.reset.phase = 0x0#4 ∧ State.reset.rxPort = [])
      ∧ (Inv (at' .handler) ∧ (at' .handler).phase = 0x4#4 ∧ (at' .handler).hpPort = [])
      ∧ (Inv (sending .sendSF [0x54] []) ∧ (sending .sendSF [0x54] []).phase = 0x6#4
        ∧ (sending .sendSF [0x54] []).txPort = []) :=
  ⟨⟨inv_reset, by decide⟩, ⟨inv_handler, by decide⟩, inv_sendSF, by decide⟩

/-- T = 7 and T = 8. -/
theorem witness_SingleFrameIffAtMostSeven :
    (runsIn .encode ((at' .encode).setRspLen 7) ∧ 1 ≤ ((at' .encode).setRspLen 7).rspLen.toNat)
      ∧ runsIn .encode ((at' .encode).setRspLen 8) ∧ 1 ≤ ((at' .encode).setRspLen 8).rspLen.toNat := by
  unfold runsIn; decide

theorem witness_SingleFrameIsEmitted :
    (sending .sendSF [0x54] [.ok]).txPort = .ok :: [] ∧ ([] : List Byte).length ≤ 6
      ∧ ([1, 2, 3, 4, 5, 6] : List Byte).length ≤ 6 := by decide

theorem witness_FirstFrameIsEmitted : (sending .sendFF [1, 2, 3, 4, 5, 6, 7, 8] [.ok]).txPort = .ok :: [] := by decide

/-- One frame before the end, and the last frame. -/
theorem witness_ConsecutiveFrameIsEmitted :
    let s := { sending .sendCF (List.replicate 20 0) [.ok] with txOff := 6, txSeq := 1 }
    let u := { sending .sendCF (List.replicate 20 0) [.ok] with txOff := 13, txSeq := 2 }
    (s.txPort = .ok :: [] ∧ s.txOff.toNat + 7 ≤ 4095 ∧ s.txOff.toNat + 7 < s.rspLen.toNat)
      ∧ u.txPort = .ok :: [] ∧ u.txOff.toNat + 7 ≤ 4095 ∧ u.rspLen.toNat ≤ u.txOff.toNat + 7 := by decide

theorem witness_NegativeResponseIsEmitted : (sending .sendSF [0x7F, 0x11, 0x33] [.ok]).txPort = .ok :: [] := by decide

theorem witness_SendFailureAborts :
    (Instr.txCF 1 [7, 8]).stage = .transmit ∧ (Instr.txNR 0x11 0x33).stage = .transmit
      ∧ (sending .sendSF [0x7F, 0x11, 0x33] [.fail]).txPort = .fail :: [] := by decide

/-- A step that answers a next state, without reset and with it: for ConfigurationIsNeverWritten,
BlockIsIndependentOfOutsideState and PhasesAdvanceInOrder. -/
theorem witness_step :
    (State.reset.resetLine = false ∧ ∃ t, step State.reset = .next t)
      ∧ ∃ t, step { State.reset with resetLine := true } = .next t := ⟨⟨rfl, _, rfl⟩, _, rfl⟩

/-- Steps from a state whose FAULT is set, and from one that sets it. -/
theorem faultSteps (data : List Byte) (h : data.length = 4095) :
    (∃ t, step { State.reset with faultBit := true } = .next t)
      ∧ ∃ t, step (answered 0x22 [0xF1, 0x90] (.positive data)) = .next t ∧ t.faultBit = true := by
  refine ⟨⟨_, rfl⟩, _, if_pos (show Config.maxMessage < 1 + data.length from ?_), rfl⟩
  unfold Config.maxMessage; omega

theorem witness_FaultBitIsStickyAndSetByOversizedReplies :
    (∃ t, step { State.reset with faultBit := true } = .next t)
      ∧ ∃ t, step (answered 0x22 [0xF1, 0x90] (.positive (List.replicate 4095 0))) = .next t ∧ t.faultBit = true :=
  faultSteps _ List.length_replicate

/-- A step that ends a transaction, one that starts one, one inside one. -/
theorem witness_LastOutcomeIsWrittenAtTheEnd :
    (∃ t, step (received []) = .next t ∧ (received []).phase ≠ 0x0#4 ∧ t.phase = 0x0#4)
      ∧ (∃ t, step State.reset = .next t) ∧ ∃ t, step (at' .filter) = .next t ∧ t.phase ≠ 0x0#4 :=
  ⟨⟨_, rfl, by decide, rfl⟩, ⟨_, rfl⟩, _, rfl, by decide⟩

/-- A step that emits a frame, one that calls a handler, one that takes an answer: for EmittedFramesAreOutboundFrames,
HandlerIsCalledByDispatchAlone and OutsideStateChangesOnlyByAnswers. -/
theorem witness_portSteps :
    (∃ t, step (sending .sendSF [0x54] [.ok]) = .next t ∧ t.txLog ≠ [])
      ∧ (∃ t, step (requested 0x10 [0x01]) = .next t ∧ t.hpLog ≠ [])
      ∧ ∃ t, step (answered 0x10 [0x04] (.negative 0x31)) = .next t ∧ t.hpPort = [] :=
  ⟨⟨_, rfl, by simp [State.sent, endTransaction]⟩, ⟨_, rfl, by decide⟩, _, rfl, rfl⟩

theorem witness_ResetRestoresTheBlock :
    { State.reset with resetLine := true }.configurationLegal = true ∧ { State.reset with resetLine := true }.resetLine = true := by
  decide

theorem witness_IllegalConfigurationsAndPhasesAreRefused :
    { State.reset with cfgRespId := 0x000 }.cfgRespId = State.reset.cfgReqId
      ∧ ((0x10#8, 0xF#4) ∈ [(0x10#8, 0xF#4)] ∧ 0xF = (0xF#4).toNat)
      ∧ (State.reset.configurationLegal = true ∧ State.reset.resetLine = false ∧ 9 ≤ (0x9#4).toNat ∧ 9 ≤ (0xF#4).toNat) := by
  decide

/-- A step from a state that meets the invariant. -/
theorem witness_StepKeepsTheInvariant :
    Inv (sending .encode [0x54] []) ∧ ∃ t, step (sending .encode [0x54] []) = .next t := ⟨inv_encode, _, rfl⟩

/-- The invariant is met in IDLE, HANDLER, ENCODE and every SEND_* phase. -/
theorem witness_BlockNeverStops :
    Inv State.reset ∧ Inv (at' .handler) ∧ Inv (sending .encode [0x54] []) ∧ Inv (sending .sendSF [0x54] [])
      ∧ Inv (sending .sendFF [1, 2, 3, 4, 5, 6, 7, 8] [])
      ∧ Inv { sending .sendCF [1, 2, 3, 4, 5, 6, 7, 8] [] with txOff := 6, txSeq := 1 } :=
  ⟨inv_reset, inv_handler, inv_encode, inv_sendSF, inv_sendFF, inv_sendCF⟩

theorem witness_BoundedAnswersKeepFaultClear :
    Safe (answered 0x10 [0x04] (.negative 0x31)) ∧ answersBounded (answered 0x10 [0x04] (.negative 0x31))
      ∧ ∃ t, step (answered 0x10 [0x04] (.negative 0x31)) = .next t :=
  ⟨rfl, by intro a ha; simp only [answered, List.mem_singleton] at ha; subst ha; rfl, _, rfl⟩

theorem witness_EveryTransactionEnds :
    let s := { at' .handler with hpPort := [answer (.negative 0x31)], txPort := List.replicate 586 .ok }
    Inv s ∧ s.resetLine = false ∧ s.phase ≠ 0x0#4 ∧ 1 ≤ s.hpPort.length ∧ 586 ≤ s.txPort.length :=
  ⟨⟨rfl, ⟨.handler, rfl, trivial⟩, by decide, by decide, rfl, by decide, fun _ hf => nomatch hf⟩, rfl, by decide, by decide,
    Nat.le_of_eq List.length_replicate.symm⟩

theorem witness_ContractAnswersNeverFault :
    let s := answered 0x10 [0x04] (.negative 0x31)
    let u := { s with reqParam := #v[0x05, 0, 0, 0, 0, 0] }
    runsIn .handler u ∧ nextAnswerAllowed u ∧ u.hpPort ≠ [] := by
  refine ⟨⟨rfl, rfl, rfl⟩, ?_, by decide⟩
  intro a later h
  cases h
  exact ⟨⟨0, 0⟩, rfl, rfl, .inr (.inl ⟨by decide, rfl, rfl⟩)⟩

theorem witness_ContractNrcsAreTheTabled :
    let h := HandlerState.atStart 0
    let req : Request := { sid := 0x10, params := [0x05] }
    handlerAllows h req ⟨0, 0⟩ (.negative 0x31) h ∧ req.sid ∈ servedSids
      ∧ entryMin (minEntry Config.defaultMinParamLen req.sid) ≤ req.params.length :=
  ⟨⟨rfl, rfl, .inr (.inl ⟨by decide, rfl, rfl⟩)⟩, by decide, by decide⟩

/-- Message lengths at the ends of the ranges: 1, 7, 8, 4095: for ReassembleInvertsEncodeMessage and FrameCountIsAsStated.
-/
theorem witness_messageLengths :
    [1, 7, 8, 4095].all (fun n => 1 ≤ n && n ≤ 4095) ∧ (List.replicate 8 (0 : Byte)).length = 8
      ∧ (List.replicate 4095 (0 : Byte)).length = 4095 := by
  exact ⟨by decide, by decide, List.length_replicate⟩

theorem witness_ConsecutiveFramesCarryTheMessage :
    (8 ≤ (List.replicate 8 (0 : Byte)).length ∧ 6 + 7 * 0 < (List.replicate 8 (0 : Byte)).length)
      ∧ 6 + 7 * 584 < (List.replicate 4095 (0 : Byte)).length := by
  refine ⟨by decide, ?_⟩
  rw [List.length_replicate]; omega

theorem witness_SegmenterEmitsEncodeMessage :
    let s := sending .encode [1, 2, 3, 4, 5, 6, 7, 8] [.ok, .ok]
    runsIn .encode s ∧ s.rspLen.toNat = 8 ∧ s.rspBuf.readBytes 0 8 = some [1, 2, 3, 4, 5, 6, 7, 8]
      ∧ s.txPort = List.replicate (encodeMessage [1, 2, 3, 4, 5, 6, 7, 8]).length .ok ++ [] := by
  unfold runsIn; decide

/-- E1, with the transport's answer ready. -/
theorem witness_PhasesRefineTheTransaction :
    let f : Frame := { id := 0x000, data := [0x02, 0x10, 0x01] }
    let a := answer (.positive [0x01, 0x00, 0x32, 0x13, 0x88])
    let s := { State.reset with rxPort := [f], hpPort := [a], txPort := [.ok] }
    runsIn .idle s ∧ f.data.length ≤ 8 ∧ (transaction s.configuration f a.reply).frames.length ≤ s.txPort.length := by
  unfold runsIn; decide

theorem witness_OwnFirstFrameIsDropped :
    let m : List Byte := [1, 2, 3, 4, 5, 6, 7, 8]
    runsIn .idle { State.reset with rxPort := [{ id := 0x000, data := [0x10, 0x08, 1, 2, 3, 4, 5, 6] }] }
      ∧ 8 ≤ m.length ∧ m.length ≤ 4095 ∧ (encodeMessage m).head? = some [0x10, 0x08, 1, 2, 3, 4, 5, 6] := by
  unfold runsIn; decide

/-- A message of each kind: a single frame, and a first frame with one consecutive frame. -/
theorem witness_ReassembleAcceptsExactlyEncodedMessages :
    reassemble [[0x01, 0x54]] = .ok [0x54]
      ∧ reassemble [[0x10, 0x08, 0, 1, 2, 3, 4, 5], [0x21, 6, 7]] = .ok [0, 1, 2, 3, 4, 5, 6, 7]
      ∧ encodeMessage [0, 1, 2, 3, 4, 5, 6, 7] = [[0x10, 0x08, 0, 1, 2, 3, 4, 5], [0x21, 6, 7]] := by decide

/-- Two states with the same request before the same handlers, with different draws. -/
theorem witness_RepeatedRequestsGetTheSameResponse :
    let s := answered 0x10 [0x05] (.negative 0x31)
    let u := { s with reqParam := #v[0x05, 0, 0, 0, 0, 0] }
    let s' := { u with rspLen := 9, faultBit := true }
    KeepsContract strictHandlers ∧ runsIn .handler u ∧ runsIn .handler s' ∧ answeredBy strictHandlers u
      ∧ answeredBy strictHandlers s' ∧ u.handlers = s'.handlers ∧ u.hpRequest = s'.hpRequest
      ∧ ∀ d d', drawn u.handlers u.hpRequest d = drawn u.handlers u.hpRequest d' :=
  ⟨strictHandlers_keepContract, ⟨rfl, rfl, rfl⟩, ⟨rfl, rfl, rfl⟩, ⟨⟨0, 0⟩, [], rfl⟩, ⟨⟨1, 1⟩, [], rfl⟩, rfl, rfl,
    fun _ _ => rfl⟩

end Sys2Proof.Tests
end

section
/-! SUPPORT. The family of 10_state.md: the step's invariant (R13..R23), the configuration, the outside state, the order of
the phases, the fields of STATUS. Every proof about a step goes through `step_effect`. -/

namespace Sys2Proof.Machine

/-! ## What a transmit row changes -/

@[simp] theorem emitBase_configuration (i : Instr) (s : State) : (emitBase i s).configuration = s.configuration := by
  cases i <;> rfl

@[simp] theorem emitBase_hpPort (i : Instr) (s : State) : (emitBase i s).hpPort = s.hpPort := by cases i <;> rfl

@[simp] theorem emitBase_handlers (i : Instr) (s : State) : (emitBase i s).handlers = s.handlers := by cases i <;> rfl

@[simp] theorem sent_configuration (bytes : List Byte) (answer : TxStatus) (later : List TxStatus) (s : State) :
    (s.sent bytes answer later).configuration = s.configuration := rfl

@[simp] theorem abortSend_configuration (s : State) : (abortSend s).configuration = s.configuration := rfl

/-- Everything that can follow an emitted consecutive frame (R89): the next one, or the transaction's end. -/
theorem afterCF_cases (n : Nat) (seq : Nibble) (s : State) :
    ((s.txOff + BitVec.ofNat 12 n).toNat < s.rspLen.toNat
      ∧ afterCF n seq s = s.setTx (s.txOff + BitVec.ofNat 12 n) (nextSeq seq))
    ∨ (s.rspLen.toNat ≤ (s.txOff + BitVec.ofNat 12 n).toNat
      ∧ afterCF n seq s = endTransaction (s.setTx (s.txOff + BitVec.ofNat 12 n) (nextSeq seq))) := by
  by_cases h : (s.txOff + BitVec.ofNat 12 n).toNat < s.rspLen.toNat
  · exact .inl ⟨h, if_pos h⟩
  · exact .inr ⟨Nat.le_of_not_lt h, if_neg h⟩

/-- After an accepted frame a transmit row writes PHASE, LAST_OUTCOME, TX_OFF and TX_SEQ; nothing else (R87, R88, R89). -/
theorem emitDone_frame (i : Instr) (s : State) :
    ∃ phase outcome off seq,
      emitDone i s = { s with phase := phase, lastOutcome := outcome, txOff := off, txSeq := seq } := by
  cases i with
  | txCF n data =>
    obtain ⟨-, he⟩ | ⟨-, he⟩ := afterCF_cases data.length n s <;> exact ⟨_, _, _, _, he⟩
  | _ => exact ⟨_, _, _, _, rfl⟩

@[simp] theorem emitDone_configuration (i : Instr) (s : State) : (emitDone i s).configuration = s.configuration := by
  obtain ⟨_, _, _, _, he⟩ := emitDone_frame i s
  rw [he]; rfl

@[simp] theorem emitDone_hpPort (i : Instr) (s : State) : (emitDone i s).hpPort = s.hpPort := by
  obtain ⟨_, _, _, _, he⟩ := emitDone_frame i s
  rw [he]

@[simp] theorem emitDone_handlers (i : Instr) (s : State) : (emitDone i s).handlers = s.handlers := by
  obtain ⟨_, _, _, _, he⟩ := emitDone_frame i s
  rw [he]

/-- Writing the phase a state is in changes nothing. -/
theorem setPhase_eq_self {p : Phase} {s : State} (h : s.phase = p.code) : s.setPhase p = s := by
  simp only [State.setPhase, ← h]

/-- Which row each phase of the segmenter sends, and what the row does once its frame is accepted (R87, R88, R89). -/
theorem Sends.row_cases {s : State} {i : Instr} (hi : Sends s i)
    (hp : s.phase = 0x6#4 ∨ s.phase = 0x7#4 ∨ s.phase = 0x8#4) :
    (s.phase = 0x6#4 ∧ emitDone i = endTransaction)
    ∨ (s.phase = 0x7#4 ∧ ∃ data, i = .txFF s.rspLen data)
    ∨ (s.phase = 0x8#4 ∧ ∃ data, data.length = min 7 (s.rspLen.toNat - s.txOff.toNat) ∧ i = .txCF s.txSeq data) := by
  obtain hp | hp | hp := hp
  · obtain ⟨m, -, ⟨m0, rest, rfl, -⟩ | ⟨sid, nrc, rfl, -⟩⟩ := hi.single hp <;> exact .inl ⟨hp, rfl⟩
  · obtain ⟨m, -, rfl⟩ := hi.first hp
    exact .inr (.inl ⟨hp, m, rfl⟩)
  · obtain ⟨m, hm, rfl⟩ := hi.consecutive hp
    exact .inr (.inr ⟨hp, m, (memRead_eq_ok hm).2.1, rfl⟩)

/-- A phase of the segmenter presents its frame without leaving the phase. -/
theorem Sends.emitBase_phase {s : State} {i : Instr} (hi : Sends s i)
    (hp : s.phase = 0x6#4 ∨ s.phase = 0x7#4 ∨ s.phase = 0x8#4) : (emitBase i s).phase = s.phase := by
  obtain hp | hp | hp := hp
  · obtain ⟨m, -, ⟨m0, rest, rfl, -⟩ | ⟨sid, nrc, rfl, -⟩⟩ := hi.single hp <;> exact hp.symm
  · obtain ⟨m, -, rfl⟩ := hi.first hp
    exact hp.symm
  · obtain ⟨m, -, rfl⟩ := hi.consecutive hp
    exact hp.symm

/-- The addresses of a canonical RSP_BUF rise. -/
theorem Memory.risesFrom_of_wf {m : Memory} (h : m.wf = true) : m.risesFrom 0 = true := (Bool.and_eq_true_iff.mp h).1

/-- Storing what a canonical RSP_BUF already holds changes nothing. -/
theorem Memory.writeBytes_eq_self {m : Memory} {a : Nat} {bytes : List Byte} (hm : m.wf = true)
    (hl : a + bytes.length ≤ 4095) (hr : ∀ i, i < bytes.length → m.read (a + i) = bytes[i]?) :
    m.writeBytes a bytes = m := by
  refine Memory.ext_of_risesFrom (Memory.risesFrom_of_wf (Memory.wf_writeBytes hm hl)) (Memory.risesFrom_of_wf hm) fun b => ?_
  rw [Memory.read_writeBytes]
  split
  · rw [← hr (b - a) (by omega)]
    congr 1
    omega
  · rfl

/-- In a run a transmit row finds its registers as it would write them: TX.NR's message is already built (log 15). -/
theorem Sends.emitBase_eq_self {s : State} {i : Instr} (hi : Sends s i)
    (hp : s.phase = 0x6#4 ∨ s.phase = 0x7#4 ∨ s.phase = 0x8#4) (hwf : s.rspBuf.wf = true) : emitBase i s = s := by
  obtain hp | hp | hp := hp
  · obtain ⟨m, hm, ⟨m0, rest, rfl, -⟩ | ⟨sid, nrc, rfl, rfl⟩⟩ := hi.single hp
    · exact setPhase_eq_self hp
    · obtain ⟨-, hlen, hread⟩ := memRead_eq_ok hm
      have h3 : 3#12 = s.rspLen := BitVec.eq_of_toNat_eq hlen
      have hbuf : s.rspBuf.writeBytes 0 [0x7F#8, sid, nrc] = s.rspBuf :=
        Memory.writeBytes_eq_self hwf (by decide : 0 + 3 ≤ 4095) fun i hi => hread i (by rwa [← hlen])
      rw [emitBase, h3, hbuf]
      exact setPhase_eq_self hp
  · obtain ⟨m, -, rfl⟩ := hi.first hp
    exact setPhase_eq_self hp
  · obtain ⟨m, -, rfl⟩ := hi.consecutive hp
    exact setPhase_eq_self hp

/-! ## The invariant's parts -/

/-- What the invariant says of the phase a state is in. -/
theorem Inv.ready {s : State} {p : Phase} (h : Inv s) (hp : s.phase = p.code) : phaseReady p s := by
  obtain ⟨q, hq, hready⟩ := h.phase
  rw [hp, ofCode_code] at hq
  cases hq
  exact hready

/-- A message just written to RSP_BUF is stored. -/
theorem messageStored_of_writeBytes {s : State} {m : Memory} {bytes : List Byte} (hlen : s.rspLen.toNat = bytes.length)
    (hbytes : 1 ≤ bytes.length) (hbuf : s.rspBuf = m.writeBytes 0 bytes) : messageStored s := by
  refine ⟨by omega, fun a ha => ?_⟩
  have hin : a < bytes.length := by omega
  rw [hbuf, Memory.read_writeBytes, if_pos (by omega), Nat.sub_zero, List.getElem?_eq_getElem hin]
  exact Option.some_ne_none _

/-- A response written for ENCODE meets the invariant (R74, R75, R76). -/
theorem Inv.respond {s : State} (h : Inv s) (bytes : List Byte) (n : BitVec 12) (o : TxnOutcome)
    (port : List HandlerAnswer) (after : HandlerState) (hlen : n.toNat = bytes.length) (hbytes : 1 ≤ bytes.length) :
    Inv { s with
      rspLen := n, rspBuf := s.rspBuf.writeBytes 0 bytes, out := o, phase := 0x5#4, hpPort := port
      handlers := after } :=
  { h with
    phase := ⟨.encode, rfl, messageStored_of_writeBytes hlen hbytes rfl⟩
    rspBuf := Memory.wf_writeBytes h.rspBuf (by omega) }

/-- The transaction's end meets the invariant, whatever the outcome (R111). -/
theorem Inv.endTransaction {s : State} (h : Inv s) : Inv (endTransaction s) :=
  { h with phase := ⟨.idle, rfl, trivial⟩, lastOutcome := s.out.code_le }

/-- An answered frame leaves the registers of the invariant alone (R92). -/
theorem Inv.sent {s : State} (h : Inv s) (bytes : List Byte) (answer : TxStatus) (later : List TxStatus) :
    Inv (s.sent bytes answer later) := { h with }

/-- The sequence number that follows, as a number (R90). -/
theorem nextSeq_toNat (n : Nibble) : (nextSeq n).toNat = if n.toNat = 15 then 1 else n.toNat + 1 := by
  unfold nextSeq
  by_cases h : n = 15#4
  · subst h; rfl
  · have hne : n.toNat ≠ 15 := fun h15 => h (BitVec.eq_of_toNat_eq h15)
    rw [if_neg h, if_neg hne]
    bv_omega

/-- The first frame leaves TX_OFF and TX_SEQ where consecutive frame 0 begins (R88, R91). -/
theorem Inv.afterFirst {s : State} (h : Inv s) (hp : s.phase = 0x7#4) : Inv ((s.setTx 6#12 1#4).setPhase .sendCF) := by
  obtain ⟨hstored, h8⟩ := h.ready (p := .sendFF) hp
  exact { h with phase := ⟨.sendCF, rfl, hstored, h8, Nat.le_refl 6, (by omega : 6 < s.rspLen.toNat), by simp, by simp⟩ }

/-- From consecutive frame k the registers advance to frame k + 1, or the transaction ends (R89, R90, R91). -/
theorem Inv.afterCF {s : State} (h : Inv s) (hp : s.phase = 0x8#4) {n : Nat}
    (hn : n = min 7 (s.rspLen.toNat - s.txOff.toNat)) : Inv (afterCF n s.txSeq s) := by
  obtain ⟨hstored, h8, h6, hlt, hmod, hseq⟩ := h.ready (p := .sendCF) hp
  have hT := s.rspLen.isLt
  have hoff : (s.txOff + BitVec.ofNat 12 n).toNat = s.txOff.toNat + n := by
    rw [BitVec.toNat_add, BitVec.toNat_ofNat]; omega
  obtain ⟨hmore, he⟩ | ⟨-, he⟩ := afterCF_cases n s.txSeq s <;> rw [he]
  · have hready : phaseReady .sendCF (s.setTx (s.txOff + BitVec.ofNat 12 n) (nextSeq s.txSeq)) := by
      refine ⟨hstored, h8, ?_, hmore, ?_, ?_⟩ <;> simp only [setTx_txOff, setTx_txSeq, nextSeq_toNat, hoff] at hmore ⊢
      · omega
      · omega
      · split <;> omega
    exact { h with phase := ⟨.sendCF, by rw [setTx_phase, hp]; rfl, hready⟩ }
  · exact { h with phase := ⟨.idle, rfl, trivial⟩, lastOutcome := s.out.code_le }

/-- Reset's registers meet the invariant for every legal configuration (R26). -/
theorem resetWith_inv {c : Configuration} (run : Nat) (h : (State.resetWith c run).configurationLegal = true) :
    Inv (State.resetWith c run) where
  configuration := h
  phase := ⟨.idle, rfl, trivial⟩
  rxLen := Nat.zero_le 8
  reqNParam := Nat.zero_le 6
  rspBuf := rfl
  lastOutcome := Nat.zero_le 0xB
  rxPort := List.forall_mem_nil _

/-- So does a reset step (R124). -/
theorem Inv.applyReset {s : State} (h : Inv s) : Inv (applyReset s) :=
  { resetWith_inv (c := s.configuration) (s.handlers.run + 1) h.configuration with rxPort := h.rxPort }

/-- What follows an accepted frame meets the invariant, by the row the phase sends. -/
theorem Inv.emitDone {s : State} {i : Instr} (h : Inv s) (hi : Sends s i)
    (hp : s.phase = 0x6#4 ∨ s.phase = 0x7#4 ∨ s.phase = 0x8#4) (bytes : List Byte) (later : List TxStatus) :
    Inv (emitDone i (s.sent bytes .ok later)) := by
  have hsent := h.sent bytes .ok later
  obtain ⟨-, hdone⟩ | ⟨h7, data, rfl⟩ | ⟨h8, data, hlen, rfl⟩ := hi.row_cases hp
  · rw [hdone]; exact hsent.endTransaction
  · exact hsent.afterFirst h7
  · exact hsent.afterCF h8 hlen

/-- Everything a step can do keeps the invariant. -/
theorem StepEffect.inv {s t : State} (he : StepEffect s t) (h : Inv s) : Inv t := by
  cases he with
  | reset => exact h.applyReset
  | noFrame => exact h
  | accepted _ f later hport hf =>
    refine { h with phase := ⟨.filter, rfl, trivial⟩, rxLen := ?_, rxPort := fun g hg => h.rxPort g ?_ }
    · rw [BitVec.toNat_ofNat]; omega
    · rw [hport]; exact List.mem_cons_of_mem f hg
  | wrongId => exact { h with phase := ⟨.idle, rfl, trivial⟩, lastOutcome := TxnOutcome.code_le .dropWrongId }
  | rightId => exact { h with phase := ⟨.decode, rfl, trivial⟩ }
  | dropped _ reason => exact { h with phase := ⟨.idle, rfl, trivial⟩, lastOutcome := reason.code_le }
  | decoded _ sid params hl =>
    refine { h with phase := ⟨.dispatch, rfl, trivial⟩, reqNParam := ?_ }
    rw [BitVec.toNat_ofNat]; omega
  | answeredNr _ code o => exact h.respond [0x7F#8, s.reqSid, code] 3#12 o _ _ rfl (by decide : 1 ≤ 3)
  | called => exact { h with phase := ⟨.handler, rfl, trivial⟩ }
  | noAnswer => exact h
  | positive _ data after later _ hl =>
    refine h.respond (positiveSid s.reqSid :: data) _ _ later after ?_ (by simp)
    rw [BitVec.toNat_ofNat, List.length_cons]; omega
  | oversized =>
    exact { h with phase := ⟨.idle, rfl, trivial⟩, lastOutcome := TxnOutcome.code_le .faultPayloadTooLarge }
  | negative _ code after later =>
    exact h.respond [0x7F#8, s.reqSid, code] 3#12 _ later after rfl (by decide : 1 ≤ 3)
  | single hp _ h7 => exact { h with phase := ⟨.sendSF, rfl, h.ready (p := .encode) hp, h7⟩ }
  | multi hp h8 => exact { h with phase := ⟨.sendFF, rfl, h.ready (p := .encode) hp, h8⟩ }
  | noStatus hp i hi => rw [hi.emitBase_eq_self hp h.rspBuf]; exact h
  | emitted hp i hi later => rw [hi.emitBase_eq_self hp h.rspBuf]; exact h.emitDone hi hp _ later
  | failed hp i hi later =>
    rw [hi.emitBase_eq_self hp h.rspBuf]
    exact { h with phase := ⟨.idle, rfl, trivial⟩, lastOutcome := TxnOutcome.code_le .txAborted }

/-- Settles O44: the invariant is kept by each of the step's effects. -/
theorem stepKeepsTheInvariant : Obligations.StepKeepsTheInvariant := fun _ _ h hstep => (step_effect hstep).inv h

/-! ## The configuration, the outside state, the order of the phases -/

/-- Settles O32: no effect of a step writes a configuration register. -/
theorem configurationIsNeverWritten : Obligations.ConfigurationIsNeverWritten := by
  intro s t h
  cases step_effect h with
  | noStatus | emitted | failed => simp
  | _ => rfl

/-- Settles O38: only the three effects that take an answer change what stands behind the handler port. -/
theorem outsideStateChangesOnlyByAnswers : Obligations.OutsideStateChangesOnlyByAnswers := by
  intro s t hr h
  cases step_effect h with
  | reset hreset => rw [hr] at hreset; cases hreset
  | positive hp data after later hport => exact .inr ⟨hp, _, hport, rfl⟩
  | oversized hp data after later hport => exact .inr ⟨hp, _, hport, rfl⟩
  | negative hp code after later hport => exact .inr ⟨hp, _, hport, rfl⟩
  | noStatus | emitted | failed => exact .inl ⟨by simp, by simp⟩
  | _ => exact .inl ⟨rfl, rfl⟩

/-- An accepted frame ends the transaction, goes on to the consecutive frames, or stays with them (R87, R88, R89). -/
theorem Sends.emitDone_phase {s t : State} {i : Instr} (hi : Sends s i)
    (hp : s.phase = 0x6#4 ∨ s.phase = 0x7#4 ∨ s.phase = 0x8#4) (ht : t.phase = s.phase) :
    (emitDone i t).phase = 0x0#4
    ∨ (s.phase = 0x7#4 ∧ (emitDone i t).phase = 0x8#4) ∨ (s.phase = 0x8#4 ∧ (emitDone i t).phase = 0x8#4) := by
  obtain ⟨-, hdone⟩ | ⟨h7, data, rfl⟩ | ⟨h8, data, -, rfl⟩ := hi.row_cases hp
  · rw [hdone]; exact .inl rfl
  · exact .inr (.inl ⟨h7, rfl⟩)
  · obtain ⟨-, he⟩ | ⟨-, he⟩ := afterCF_cases data.length s.txSeq t
    · exact .inr (.inr ⟨h8, (congrArg State.phase he).trans (ht.trans h8)⟩)
    · exact .inl (congrArg State.phase he)

/-- Settles O40: each effect of a step is one of the listed pairs of phases. -/
theorem phasesAdvanceInOrder : Obligations.PhasesAdvanceInOrder := by
  intro s t hr h
  cases step_effect h with
  | reset hreset => rw [hr] at hreset; cases hreset
  | noStatus hp i hi => rw [hi.emitBase_phase hp]; obtain hp | hp | hp := hp <;> rw [hp] <;> decide
  | emitted hp i hi later =>
    obtain ht | ⟨h7, ht⟩ | ⟨h8, ht⟩ :=
      hi.emitDone_phase (t := (emitBase i s).sent (encode i) .ok later) hp (hi.emitBase_phase hp)
    · rw [ht]; obtain hp | hp | hp := hp <;> rw [hp] <;> decide
    · rw [ht, h7]; decide
    · rw [ht, h8]; decide
  | failed hp i hi => rw [abortSend_phase]; obtain hp | hp | hp := hp <;> rw [hp] <;> decide
  | noFrame hp | accepted hp | wrongId hp | rightId hp | dropped hp | decoded hp | answeredNr hp | called hp | noAnswer hp
  | positive hp | oversized hp | negative hp | single hp | multi hp => simp only [hp]; decide

/-! ## STATUS, refusals, reset -/

/-- STATUS above LAST_OUTCOME is the joined flags (R23). -/
theorem status_getLsbD_high (s : State) (i : Nat) :
    s.status.getLsbD (4 + i) = (0b00#2 ++ BitVec.ofBool s.busy ++ BitVec.ofBool s.faultBit).getLsbD i := by
  refine BitVec.getLsbD_append.trans ?_
  rw [if_neg (by omega), Nat.add_sub_cancel_left]

/-- The flags of STATUS from the lowest on: FAULT, BUSY, 0, 0 (R23). -/
theorem statusFlags_getLsbD (busy fault : Bool) :
    (0b00#2 ++ BitVec.ofBool busy ++ BitVec.ofBool fault).getLsbD 0 = fault
    ∧ (0b00#2 ++ BitVec.ofBool busy ++ BitVec.ofBool fault).getLsbD 1 = busy
    ∧ (0b00#2 ++ BitVec.ofBool busy ++ BitVec.ofBool fault).getLsbD 2 = false
    ∧ (0b00#2 ++ BitVec.ofBool busy ++ BitVec.ofBool fault).getLsbD 3 = false := by
  revert busy fault; decide

/-- BUSY is set exactly outside IDLE (R23). -/
theorem busy_iff (s : State) : s.busy = true ↔ s.phase ≠ 0x0#4 := bne_iff_ne

/-- Settles O34: LAST_OUTCOME is the low field, the flags are the bits above it. -/
theorem statusFieldsReadAsSpecified : Obligations.StatusFieldsReadAsSpecified := by
  intro s
  obtain ⟨hfault, hbusy, h6, h7⟩ := statusFlags_getLsbD s.busy s.faultBit
  refine ⟨extract_low _ _, (status_getLsbD_high s 0).trans hfault, ?_, (status_getLsbD_high s 2).trans h6,
    (status_getLsbD_high s 3).trans h7⟩
  rw [← busy_iff, (status_getLsbD_high s 1).trans hbusy]

/-- A listed entry 0b1111 is present with the reserved minimum 7, so its table is illegal (R17). -/
theorem minTableLegal_eq_false {table : List (Byte × BitVec 4)} {sid : Byte} {entry : BitVec 4}
    (hmem : (sid, entry) ∈ table) (h : 0xF = entry.toNat) : minTableLegal table = false := by
  have he : entry = 0xF#4 := BitVec.eq_of_toNat_eq h.symm
  subst he
  exact List.all_eq_false.mpr ⟨_, hmem, (by decide : ¬ (!(entryPresent 0xF#4 && entryMin 0xF#4 == 7)) = true)⟩

/-- The reserved PHASE values name no phase (R13). -/
theorem ofCode_reserved {c : BitVec 4} (h : 9 ≤ c.toNat) : Phase.ofCode c = none := by
  cases hp : Phase.ofCode c with
  | none => rfl
  | some p =>
    rw [code_of_ofCode hp] at h
    cases p <;> exact absurd h (by decide)

/-- An illegal configuration has no step (R15, R17). -/
theorem step_of_illegal {s : State} (h : s.configurationLegal = false) : step s = .refused .illegalConfiguration := by
  simp [step, h]

/-- Settles O42, by the order of the step's checks. -/
theorem illegalConfigurationsAndPhasesAreRefused : Obligations.IllegalConfigurationsAndPhasesAreRefused := by
  intro s
  refine ⟨fun hid => step_of_illegal ?_, fun sid entry hmem he => step_of_illegal ?_, fun hc hr hp => ?_⟩
  · simp [State.configurationLegal, hid]
  · simp [State.configurationLegal, minTableLegal_eq_false hmem he]
  · simp [step, hc, hr, ofCode_reserved hp]

/-- Settles O43: the default configuration is legal. -/
theorem invariantHoldsAtReset : Obligations.InvariantHoldsAtReset := resetWith_inv 0 (by decide)

end Sys2Proof.Machine
end

section
/-! SUPPORT. The family of 20_memory.md: the handler port (R34). The proof goes through `step_effect`. -/

namespace Sys2Proof.Machine

/-! ## What a transmit row leaves of the handler log -/

@[simp] theorem emitBase_hpLog (i : Instr) (s : State) : (emitBase i s).hpLog = s.hpLog := by cases i <;> rfl

@[simp] theorem emitDone_hpLog (i : Instr) (s : State) : (emitDone i s).hpLog = s.hpLog := by
  obtain ⟨_, _, _, _, he⟩ := emitDone_frame i s
  rw [he]

/-! ## The handler call -/

/-- Settles O37: only DISPATCH's call writes the handler log, and it carries the table's two conditions (R70, R73). -/
theorem handlerIsCalledByDispatchAlone : Obligations.HandlerIsCalledByDispatchAlone := by
  intro s t h
  cases step_effect h with
  | called hp _ hpresent hmin => exact .inr ⟨hp, rfl, rfl, hpresent, hmin⟩
  | noStatus | emitted | failed => exact .inl (by simp)
  | _ => exact .inl rfl

end Sys2Proof.Machine
end

section
/-! SUPPORT. The family of 30_encoding.md: the decoder against the encoder (R43..R52), how placed and fetched bytes reach exec,
and that no step from a state of the invariant stops (R53). The decoder's proofs go through the frames of the encoder. -/

namespace Sys2Proof

open Machine (decode_singleFrame)

/-! ## Well-formed operands -/

theorem restFits_iff (rest : List Byte) : restFits rest = true ↔ rest.length ≤ 6 := decide_eq_true_iff

theorem tailFits_iff (rest : List Byte) :
    tailFits rest = true ↔ ∃ b1 more, rest = b1 :: more ∧ more.length ≤ 6 := by
  cases rest with
  | nil => simp [tailFits]
  | cons b1 more => simp [tailFits, Nat.lt_succ_iff]

/-! ## What each row's first byte decodes to -/

/-- A frame of two to eight bytes is read at the receive stage by the primary map (R50). -/
theorem decode_receive (b0 b1 : Byte) {rest : List Byte} (h : rest.length ≤ 6) :
    decode .receive (b0 :: b1 :: rest) = .ok (decodeReceive b0 b1 rest) := if_neg (Nat.not_lt.mpr h)

/-- A frame of two to eight bytes is read at the transmit stage by the outbound formats (R52). -/
theorem decode_transmit (b0 b1 : Byte) {rest : List Byte} (h : rest.length ≤ 6) :
    decode .transmit (b0 :: b1 :: rest) = decodeTransmit b0 b1 rest := if_neg (Nat.not_lt.mpr h)

/-- What decodes has two to eight bytes (R43, R50). -/
theorem decode_eq_ok {st : Stage} {bytes : List Byte} {i : Instr} (h : decode st bytes = .ok i) :
    ∃ b0 b1 rest, bytes = b0 :: b1 :: rest ∧ rest.length ≤ 6 := by
  match bytes with
  | [] => cases h
  | [_] => cases h
  | b0 :: b1 :: rest =>
    refine ⟨b0, b1, rest, rfl, Nat.le_of_not_lt fun hlong => ?_⟩
    cases (if_pos hlong).symm.trans h

@[simp] theorem decodeReceive_sf (l : Nibble) (b1 : Byte) (rest : List Byte) :
    decodeReceive (pciByte 0x0#4 l) b1 rest = .rxSF l b1 rest := by simp [decodeReceive]

@[simp] theorem decodeReceive_ff (n : Nibble) (b1 : Byte) (rest : List Byte) :
    decodeReceive (pciByte 0x1#4 n) b1 rest = .rxFF (ffLength (pciByte 0x1#4 n) b1) rest := by simp [decodeReceive]

@[simp] theorem decodeReceive_cf (n : Nibble) (b1 : Byte) (rest : List Byte) :
    decodeReceive (pciByte 0x2#4 n) b1 rest = .rxCF n (b1 :: rest) := by simp [decodeReceive]

@[simp] theorem decodeReceive_other3 (n : Nibble) (b1 : Byte) (rest : List Byte) :
    decodeReceive (pciByte 0x3#4 n) b1 rest = .rxOther3 n (b1 :: rest) := by simp [decodeReceive]

/-- The fields of a PCI byte with a type of 0x4..0x7 (R68). -/
theorem fields_4to7 (ty : BitVec 2) (n : Nibble) :
    (pciByte (0b01#2 ++ ty) n).extractLsb' 6 2 = 0b01#2 ∧ (pciByte (0b01#2 ++ ty) n).extractLsb' 4 2 = ty := by
  revert ty n; decide

/-- The fields of a PCI byte with a type of 0x8..0xF (R68). -/
theorem fields_8toF (ty : BitVec 3) (n : Nibble) :
    (pciByte (0b1#1 ++ ty) n).extractLsb' 6 2 ≠ 0b01#2 ∧ (pciByte (0b1#1 ++ ty) n).extractLsb' 4 3 = ty := by
  revert ty n; decide

/-- A type of 0x4..0x7 is none of the four single types. -/
theorem type_4to7_ne (ty : BitVec 2) :
    0b01#2 ++ ty ≠ 0x0#4 ∧ 0b01#2 ++ ty ≠ 0x1#4 ∧ 0b01#2 ++ ty ≠ 0x2#4 ∧ 0b01#2 ++ ty ≠ 0x3#4 := by
  revert ty; decide

/-- Nor is a type of 0x8..0xF. -/
theorem type_8toF_ne (ty : BitVec 3) :
    0b1#1 ++ ty ≠ 0x0#4 ∧ 0b1#1 ++ ty ≠ 0x1#4 ∧ 0b1#1 ++ ty ≠ 0x2#4 ∧ 0b1#1 ++ ty ≠ 0x3#4 := by
  revert ty; decide

@[simp] theorem decodeReceive_other4to7 (ty : BitVec 2) (n : Nibble) (b1 : Byte) (rest : List Byte) :
    decodeReceive (pciByte (0b01#2 ++ ty) n) b1 rest = .rxOther4to7 ty n (b1 :: rest) := by
  obtain ⟨hhigh, hty⟩ := fields_4to7 ty n
  obtain ⟨h0, h1, h2, h3⟩ := type_4to7_ne ty
  rw [decodeReceive, pciType_pciByte, pciNibble_pciByte, if_neg h0, if_neg h1, if_neg h2, if_neg h3, if_pos hhigh, hty]

@[simp] theorem decodeReceive_other8toF (ty : BitVec 3) (n : Nibble) (b1 : Byte) (rest : List Byte) :
    decodeReceive (pciByte (0b1#1 ++ ty) n) b1 rest = .rxOther8toF ty n (b1 :: rest) := by
  obtain ⟨hhigh, hty⟩ := fields_8toF ty n
  obtain ⟨h0, h1, h2, h3⟩ := type_8toF_ne ty
  rw [decodeReceive, pciType_pciByte, pciNibble_pciByte, if_neg h0, if_neg h1, if_neg h2, if_neg h3, if_neg hhigh, hty]

/-! ## Decoding what was encoded -/

/-- The frame of a receive row decodes to it: each row's type selects it (R50). -/
theorem decode_encode_receive {i : Instr} (hst : i.stage = .receive) (hwf : i.wf = true) :
    decode .receive (encode i) = .ok i := by
  cases i with
  | rxSF l sid rest => rw [encode, decode_receive _ _ ((restFits_iff rest).mp hwf), decodeReceive_sf]
  | rxFF tlen rest =>
    rw [encode, decode_receive _ _ ((restFits_iff rest).mp hwf), decodeReceive_ff, ffLength_fields]
  | rxCF n rest =>
    obtain ⟨b1, more, rfl, hl⟩ := (tailFits_iff rest).mp hwf
    rw [encode, decode_receive _ _ hl, decodeReceive_cf]
  | rxOther3 n rest =>
    obtain ⟨b1, more, rfl, hl⟩ := (tailFits_iff rest).mp hwf
    rw [encode, decode_receive _ _ hl, decodeReceive_other3]
  | rxOther4to7 ty n rest =>
    obtain ⟨b1, more, rfl, hl⟩ := (tailFits_iff rest).mp hwf
    rw [encode, decode_receive _ _ hl, decodeReceive_other4to7]
  | rxOther8toF ty n rest =>
    obtain ⟨b1, more, rfl, hl⟩ := (tailFits_iff rest).mp hwf
    rw [encode, decode_receive _ _ hl, decodeReceive_other8toF]
  | _ => cases hst

/-- A SID without a row of its own selects SID.UNSUPPORTED (R51, R71). -/
theorem decodeService_unserved {sid : Byte} (h : servedSids.contains sid = false) (params : List Byte) :
    decodeService sid params = .sidUnsupported sid params := by
  simp [servedSids] at h
  simp [decodeService, h]

/-- The request of a dispatch row decodes to it: its SID selects it (R51). -/
theorem decode_encode_dispatch {i : Instr} (hst : i.stage = .dispatch) (hwf : i.wf = true) :
    decode .dispatch (encode i) = .ok i := by
  cases i with
  | dsc params | er params | cdtci params | rdbi params | rmba params | sa params =>
    exact decode_singleFrame _ ((restFits_iff params).mp hwf)
  | sidUnsupported sid params =>
    obtain ⟨hfits, hsid⟩ := Bool.and_eq_true_iff.mp hwf
    rw [encode, decode_singleFrame sid ((restFits_iff params).mp hfits),
      decodeService_unserved ((Bool.not_eq_true' _).mp hsid)]
  | _ => cases hst

/-- The negative response is TX.NR's; every other single frame of one to seven message bytes is TX.SF's (R45, R48). -/
theorem decode_transmit_singleFrame (m0 : Byte) {rest : List Byte} (hl : rest.length ≤ 6)
    (hnr : ¬ (m0 = 0x7F#8 ∧ rest.length = 2)) : decode .transmit (singleFrame m0 rest) = .ok (.txSF m0 rest) := by
  have hlen : (BitVec.ofNat 4 (1 + rest.length)).toNat = 1 + rest.length := by
    rw [BitVec.toNat_ofNat, Nat.mod_eq_of_lt (by omega)]
  rw [singleFrame, decode_transmit _ _ hl]
  unfold decodeTransmit
  rw [pciType_pciByte, if_pos rfl, pciNibble_pciByte, hlen,
    if_pos ⟨rfl, by omega⟩]
  split
  · rw [if_neg fun h => hnr ⟨h, rfl⟩]
  · rfl

/-- The frame of a transmit row decodes to it (R52). -/
theorem decode_encode_transmit {i : Instr} (hst : i.stage = .transmit) (hwf : i.wf = true) :
    decode .transmit (encode i) = .ok i := by
  cases i with
  | txSF m0 rest =>
    obtain ⟨hfits, hnr⟩ := Bool.and_eq_true_iff.mp hwf
    exact decode_transmit_singleFrame m0 ((restFits_iff rest).mp hfits) (by simpa [imp_iff_not_or] using hnr)
  | txFF tlen data =>
    obtain ⟨h8, h6⟩ := Bool.and_eq_true_iff.mp hwf
    rw [decide_eq_true_eq] at h8 h6
    rw [encode, decode_transmit _ _ h6.le]
    unfold decodeTransmit
    rw [pciType_pciByte, if_neg (by decide), if_pos rfl, ffLength_fields, if_pos ⟨h8, h6⟩]
  | txCF n data =>
    obtain ⟨hn, htail⟩ := Bool.and_eq_true_iff.mp hwf
    rw [decide_eq_true_eq] at hn
    obtain ⟨b1, more, rfl, hl⟩ := (tailFits_iff data).mp htail
    rw [encode, decode_transmit _ _ hl]
    unfold decodeTransmit
    rw [pciType_pciByte, if_neg (by decide), if_neg (by decide), if_pos rfl, pciNibble_pciByte, if_neg hn]
  | txNR sid nrc => rfl
  | _ => cases hst

/-- Settles O1, by the stage the instruction is read at. -/
theorem decodeInvertsEncode : Obligations.DecodeInvertsEncode := by
  intro i hwf
  cases hst : i.stage with
  | receive => exact decode_encode_receive hst hwf
  | dispatch => exact decode_encode_dispatch hst hwf
  | transmit => exact decode_encode_transmit hst hwf

/-! ## Every decoded frame is an encoded one -/

/-- The sixteen PCI types, by the row that reads them at the receive stage (R50). -/
theorem type_cases (t : Nibble) :
    t = 0x0#4 ∨ t = 0x1#4 ∨ t = 0x2#4 ∨ t = 0x3#4 ∨ (∃ ty : BitVec 2, t = 0b01#2 ++ ty)
      ∨ ∃ ty : BitVec 3, t = 0b1#1 ++ ty := by
  revert t; decide

/-- Every frame of two to eight bytes is a receive row's (R50). -/
theorem exists_receive_row (b0 b1 : Byte) {rest : List Byte} (hl : rest.length ≤ 6) :
    ∃ i : Instr, i.stage = .receive ∧ i.wf = true ∧ encode i = b0 :: b1 :: rest := by
  have hrest := (restFits_iff rest).mpr hl
  have htail := (tailFits_iff (b1 :: rest)).mpr ⟨b1, rest, rfl, hl⟩
  rw [← pciByte_fields b0]
  obtain ht | ht | ht | ht | ⟨ty, ht⟩ | ⟨ty, ht⟩ := type_cases (pciType b0) <;> rw [ht]
  · exact ⟨.rxSF (pciNibble b0) b1 rest, rfl, hrest, rfl⟩
  · exact ⟨.rxFF (ffLength b0 b1) rest, rfl, hrest, by rw [encode, lengthHigh_ffLength, lengthLow_ffLength]⟩
  · exact ⟨.rxCF (pciNibble b0) (b1 :: rest), rfl, htail, rfl⟩
  · exact ⟨.rxOther3 (pciNibble b0) (b1 :: rest), rfl, htail, rfl⟩
  · exact ⟨.rxOther4to7 ty (pciNibble b0) (b1 :: rest), rfl, htail, rfl⟩
  · exact ⟨.rxOther8toF ty (pciNibble b0) (b1 :: rest), rfl, htail, rfl⟩

/-- The frame of a negative response is the single frame of its message (R48). -/
theorem encode_txNR (sid nrc : Byte) : encode (.txNR sid nrc) = singleFrame 0x7F#8 [sid, nrc] :=
  congrArg (· :: [0x7F#8, sid, nrc]) (by decide : 0x03#8 = pciByte 0x0#4 0x3#4)

/-- Every single frame of one to seven message bytes is TX.SF's or TX.NR's (R45, R48). -/
theorem exists_single_row (m0 : Byte) {rest : List Byte} (hl : rest.length ≤ 6) :
    ∃ i : Instr, i.stage = .transmit ∧ i.wf = true ∧ encode i = singleFrame m0 rest := by
  by_cases hnr : m0 = 0x7F#8 ∧ rest.length = 2
  · obtain ⟨rfl, h2⟩ := hnr
    obtain ⟨sid, nrc, rfl⟩ := List.length_eq_two.mp h2
    exact ⟨.txNR sid nrc, rfl, rfl, encode_txNR sid nrc⟩
  · refine ⟨.txSF m0 rest, rfl, ?_, rfl⟩
    rw [Instr.wf, (restFits_iff rest).mpr hl]
    simpa [← imp_iff_not_or] using hnr

/-- Every frame the outbound formats read is a transmit row's (R52). -/
theorem exists_transmit_row {b0 b1 : Byte} {rest : List Byte} {i : Instr} (hl : rest.length ≤ 6)
    (h : decodeTransmit b0 b1 rest = .ok i) :
    ∃ j : Instr, j.stage = .transmit ∧ j.wf = true ∧ encode j = b0 :: b1 :: rest := by
  rw [← pciByte_fields b0]
  unfold decodeTransmit at h
  split at h
  case isTrue ht =>
    split at h
    case isTrue hlen =>
      have hnib : pciNibble b0 = BitVec.ofNat 4 (1 + rest.length) := by
        rw [← hlen.1, BitVec.ofNat_toNat, BitVec.setWidth_eq]
      rw [ht, hnib]
      exact exists_single_row b1 hl
    case isFalse => cases h
  case isFalse =>
    split_ifs at h with ht hff ht hn <;> rw [ht]
    · exact ⟨.txFF (ffLength b0 b1) rest, rfl, by simpa [Instr.wf] using hff,
        by rw [encode, lengthHigh_ffLength, lengthLow_ffLength]⟩
    · exact ⟨.txCF (pciNibble b0) (b1 :: rest), rfl,
        Bool.and_eq_true_iff.mpr ⟨decide_eq_true hn, (tailFits_iff _).mpr ⟨b1, rest, rfl, hl⟩⟩, rfl⟩

/-- What decodes at the receive or the transmit stage is the frame of a well-formed row of that stage. -/
theorem exists_row_of_decode {st : Stage} {bytes : List Byte} {i : Instr} (hst : st ≠ .dispatch)
    (h : decode st bytes = .ok i) : ∃ j : Instr, j.stage = st ∧ j.wf = true ∧ encode j = bytes := by
  obtain ⟨b0, b1, rest, rfl, hl⟩ := decode_eq_ok h
  cases st with
  | receive => exact exists_receive_row b0 b1 hl
  | dispatch => exact absurd rfl hst
  | transmit => rw [decode_transmit b0 b1 hl] at h; exact exists_transmit_row hl h

/-- The instruction decoded is that row: its frame is the bytes, and it is well-formed (R44, R50, R52). -/
theorem decode_inversion {st : Stage} {bytes : List Byte} {i : Instr} (hst : st ≠ .dispatch)
    (h : decode st bytes = .ok i) : encode i = bytes ∧ i.wf = true ∧ i.stage = st := by
  obtain ⟨j, rfl, hwf, rfl⟩ := exists_row_of_decode hst h
  cases (decodeInvertsEncode j hwf).symm.trans h
  exact ⟨rfl, hwf, rfl⟩

/-- Settles O2: what decodes is the frame of the row `decode_inversion` names. -/
theorem encodeInvertsDecode : Obligations.EncodeInvertsDecode := fun _ _ _ hst h => (decode_inversion hst h).1

/-- The secondary map answers a well-formed dispatch row: SID.UNSUPPORTED only where no SID of the six matched (R51). -/
theorem decodeService_wf (sid : Byte) {params : List Byte} (hl : params.length ≤ 6) :
    (decodeService sid params).wf = true ∧ (decodeService sid params).stage = .dispatch := by
  have hfits := (restFits_iff params).mpr hl
  unfold decodeService
  split_ifs with h10 h11 h14 h22 h23 h27
  case neg => exact ⟨by simp [Instr.wf, hfits, servedSids, h10, h11, h14, h22, h23, h27], rfl⟩
  all_goals exact ⟨hfits, rfl⟩

/-- A request that decodes is read by the secondary map, with parameters that fit (R51, R64). -/
theorem decode_dispatch_inversion {bytes : List Byte} {i : Instr} (h : decode .dispatch bytes = .ok i) :
    ∃ b0 b1 rest, bytes = b0 :: b1 :: rest ∧ rest.length ≤ 6
      ∧ i = decodeService b1 (rest.take (paramCount (pciNibble b0) (2 + rest.length))) := by
  obtain ⟨b0, b1, rest, rfl, hl⟩ := decode_eq_ok h
  have hd : decodeDispatch b0 b1 rest = .ok i := (if_neg (Nat.not_lt.mpr hl)).symm.trans h
  unfold decodeDispatch at hd
  split_ifs at hd
  cases hd
  exact ⟨b0, b1, rest, rfl, hl, rfl⟩

/-- Settles O3: at dispatch by the secondary map's rows, elsewhere as the row whose frame was read. -/
theorem decodedInstructionsAreWellFormed : Obligations.DecodedInstructionsAreWellFormed := by
  intro st bytes i h
  by_cases hst : st = .dispatch
  · subst hst
    obtain ⟨b0, b1, rest, -, hl, rfl⟩ := decode_dispatch_inversion h
    exact decodeService_wf b1 ((List.length_take_le' _ rest).trans hl)
  · exact (decode_inversion hst h).2

/-! ## The primary map, by byte 0 as a number -/

/-- A byte whose high nibble is `t` as a number, as the two fields joined (R44). -/
theorem eq_pciByte {b : Byte} {t : Nibble} (h : b.toNat / 16 = t.toNat) : b = pciByte t (BitVec.ofNat 4 b.toNat) := by
  apply BitVec.eq_of_toNat_eq
  have hb := b.isLt
  rw [pciByte_eq, BitVec.toNat_ofNat, BitVec.toNat_ofNat, ← h]
  omega

/-- The types 0x4..0x7 as numbers (R68). -/
theorem type_4to7_toNat (ty : BitVec 2) : (0b01#2 ++ ty).toNat = 4 + ty.toNat := by revert ty; decide

/-- The types 0x8..0xF as numbers (R68). -/
theorem type_8toF_toNat (ty : BitVec 3) : (0b1#1 ++ ty).toNat = 8 + ty.toNat := by revert ty; decide

/-- A first frame's length field as a number (R46, R49). -/
theorem ffLength_toNat (b0 b1 : Byte) : (ffLength b0 b1).toNat = b0.toNat % 16 * 256 + b1.toNat := by
  have h1 := b1.isLt
  rw [ffLength, BitVec.toNat_append, ← Nat.shiftLeft_add_eq_or_of_lt h1, Nat.shiftLeft_eq]
  simp [pciNibble, BitVec.extractLsb'_toNat]

/-- RX.FF, RX.CF and RX.OTHER drop the frame (R66, R67, R68). -/
theorem exec_decodeReceive_drop {b0 : Byte} (h : b0.toNat / 16 ≠ 0) (b1 : Byte) (rest : List Byte) (s : Machine.State) :
    Machine.exec (decodeReceive b0 b1 rest) s =
      .next { s with out := .dropNotSingleFrame, lastOutcome := 0x3#4, phase := 0x0#4 } := by
  have h0 : pciType b0 ≠ 0x0#4 := fun h0 => h (by rw [← pciByte_fields b0, h0, pciByte_eq]; simp; omega)
  rw [decodeReceive, if_neg h0]
  split_ifs <;> rfl

/-- Settles O4: each range of byte 0's high nibble fixes its PCI byte, and that its row. -/
theorem primaryMapClassifiesEveryFrame : Obligations.PrimaryMapClassifiesEveryFrame := by
  intro b0 b1 rest hl
  have hb := b0.isLt
  refine ⟨decodeReceive b0 b1 rest, decode_receive b0 b1 hl, fun h => ?_, fun h => ?_, fun h => ?_, fun h => ?_,
    fun h4 h7 => ?_, fun h8 => ?_, fun h => exec_decodeReceive_drop h b1 rest⟩
  · rw [← decodeReceive_sf, ← eq_pciByte h]
  · refine ⟨ffLength b0 b1, ?_, ffLength_toNat b0 b1⟩
    have hff := decodeReceive_ff (BitVec.ofNat 4 b0.toNat) b1 rest
    rwa [← eq_pciByte h] at hff
  · rw [← decodeReceive_cf, ← eq_pciByte h]
  · rw [← decodeReceive_other3, ← eq_pciByte h]
  · have hty : (BitVec.ofNat 2 (b0.toNat / 16 - 4)).toNat = b0.toNat / 16 - 4 := by rw [BitVec.toNat_ofNat]; omega
    refine ⟨BitVec.ofNat 2 (b0.toNat / 16 - 4), ?_, hty⟩
    rw [← decodeReceive_other4to7, ← eq_pciByte (by rw [type_4to7_toNat, hty]; omega)]
  · have hty : (BitVec.ofNat 3 (b0.toNat / 16 - 8)).toNat = b0.toNat / 16 - 8 := by rw [BitVec.toNat_ofNat]; omega
    refine ⟨BitVec.ofNat 3 (b0.toNat / 16 - 8), ?_, hty⟩
    rw [← decodeReceive_other8toF, ← eq_pciByte (by rw [type_8toF_toNat, hty]; omega)]

/-- Settles O5: each frame is evaluated. -/
theorem sampleFramesDecode : Obligations.SampleFramesDecode := by unfold Obligations.SampleFramesDecode; decide

end Sys2Proof

namespace Sys2Proof.Machine

/-! ## Every instruction has a meaning -/

/-- Emit always answers a next state: it waits, goes on or aborts (R93, R94). -/
theorem emit_next (bytes : List Byte) (f : State → State) (s : State) : ∃ t, emit bytes f s = .next t := by
  obtain ⟨-, he⟩ | ⟨_, -, he⟩ | ⟨_, -, he⟩ := emit_cases bytes f s <;> exact ⟨_, he⟩

/-- So does DecodeRequest(): it drops or goes on to DISPATCH (R58). -/
theorem decodeRequest_next (l : Nibble) (sid : Byte) (rest : List Byte) (s : State) :
    ∃ t, decodeRequest l sid rest s = .next t := by
  obtain ⟨-, he⟩ | ⟨-, -, he⟩ | ⟨-, -, he⟩ := decodeRequest_cases l sid rest s <;> exact ⟨_, he⟩

/-- So does Dispatch(): it answers a negative response or calls the handler (R70). -/
theorem dispatch_next (sid : Byte) (params : List Byte) (s : State) : ∃ t, dispatch sid params s = .next t := by
  obtain ⟨-, he⟩ | ⟨-, -, he⟩ | ⟨-, -, he⟩ := dispatch_cases sid params s <;> exact ⟨_, he⟩

/-- So does the rest of Dispatch(): every reply becomes a message or the fault (R84). -/
theorem acceptReply_next (r : Reply) (s : State) : ∃ t, acceptReply r s = .next t := by
  obtain ⟨_, -, -, he⟩ | ⟨_, -, -, he⟩ | ⟨_, -, he⟩ := acceptReply_cases r s <;> exact ⟨_, he⟩

/-- No instruction traps, in any state (R53, R115). -/
theorem exec_next (i : Instr) (s : State) : ∃ t, exec i s = .next t := by
  cases i with
  | rxSF l sid rest => exact decodeRequest_next l sid rest s
  | rxFF | rxCF | rxOther3 | rxOther4to7 | rxOther8toF => exact ⟨_, rfl⟩
  | dsc params | er params | cdtci params | rdbi params | rmba params | sa params => exact dispatch_next _ params s
  | sidUnsupported sid params => exact dispatch_next sid params s
  | txSF | txFF | txCF | txNR => rw [exec_transmit rfl]; exact emit_next _ _ _

/-! ## Fetch, decode, execute -/

/-- Fetched bytes that decode are executed. -/
theorem runFetched_ok {st : Stage} {bytes : List Byte} {i : Instr} (h : decode st bytes = .ok i) (s : State) :
    runFetched st (.ok bytes) s = exec i s := by rw [runFetched, h]

/-- Fetching the frame of a well-formed instruction of the stage runs it. -/
theorem runFetched_encode {i : Instr} (hwf : i.wf = true) {fetched : Except Result (List Byte)}
    (hf : fetched = .ok (encode i)) (s : State) : runFetched i.stage fetched s = exec i s := by
  rw [hf, runFetched_ok (decodeInvertsEncode i hwf)]

/-- DECODE executes what two to eight received bytes decode to (R58). -/
theorem runPhase_decode {s : State} {i : Instr} (h2 : 2 ≤ s.rxLen.toNat) (h8 : s.rxLen.toNat ≤ 8)
    (h : decode .receive s.rxBytes = .ok i) : runPhase .decode s = exec i s := by
  have hshort : ¬ tooShort s = true := fun hs => Nat.not_lt.mpr h2 (of_decide_eq_true hs)
  rw [runPhase, if_neg hshort, fetchReceived, if_neg (Nat.not_lt.mpr h8), runFetched_ok h]

/-- DISPATCH executes the row of REQ_SID with the parameters in REQ_PARAM (R51, R70). -/
theorem runPhase_dispatch {s : State} (h6 : s.reqNParam.toNat ≤ 6) :
    runPhase .dispatch s = exec (decodeService s.reqSid s.reqParams) s := by
  have hlen : s.reqParams.length ≤ 6 := (reqParams_length h6).trans_le h6
  rw [runPhase, fetchRequest, if_neg (Nat.not_lt.mpr h6), runFetched_ok (decode_singleFrame s.reqSid hlen)]

/-- The message in RSP_BUF can be read wherever it is stored (R27). -/
theorem messageStored.memRead {s : State} (h : messageStored s) {a n : Nat} (hn : a + n ≤ s.rspLen.toNat) :
    ∃ bytes, memRead a n s = .ok bytes ∧ bytes.length = n := by
  obtain ⟨bytes, hread, hlen, -⟩ := memRead_ok (s := s) hn fun i hi => h.2 (a + i) (by omega)
  exact ⟨bytes, hread, hlen⟩

/-- SEND_SF fetches the single frame of the message it reads (R87). -/
theorem fetchSingle_of_memRead {s : State} {m0 : Byte} {rest : List Byte}
    (h : memRead 0 s.rspLen.toNat s = .ok (m0 :: rest)) (h7 : s.rspLen.toNat ≤ 7) :
    fetchSingle s = .ok (singleFrame m0 rest) := by
  have hlen : rest.length + 1 = s.rspLen.toNat := (memRead_eq_ok h).2.1
  have hpci : BitVec.setWidth 8 s.rspLen = pciByte 0x0#4 (BitVec.ofNat 4 (1 + rest.length)) := by
    rw [pciByte_single (by omega), Nat.add_comm, hlen, BitVec.ofNat_toNat]
  rw [fetchSingle, h, hpci, singleFrame]

/-- SEND_FF fetches the first frame of the six bytes it reads (R88). -/
theorem fetchFirst_of_memRead {s : State} {bytes : List Byte} (h : memRead 0 6 s = .ok bytes) :
    fetchFirst s = .ok (encode (.txFF s.rspLen bytes)) := by
  rw [fetchFirst, h, encode]

/-- SEND_CF fetches the consecutive frame of the bytes it reads (R89). -/
theorem fetchConsecutive_of_memRead {s : State} {bytes : List Byte}
    (h : memRead s.txOff.toNat (min 7 (s.rspLen.toNat - s.txOff.toNat)) s = .ok bytes) :
    fetchConsecutive s = .ok (encode (.txCF s.txSeq bytes)) := by
  rw [fetchConsecutive, h, encode]

/-- What SEND_SF fetches is the frame of a transmit row (R45). -/
theorem fetchSingle_row {s : State} (h : phaseReady .sendSF s) :
    ∃ i : Instr, i.stage = .transmit ∧ i.wf = true ∧ fetchSingle s = .ok (encode i) := by
  obtain ⟨hstored, h7⟩ := h
  have h1 := hstored.1
  obtain ⟨bytes, hread, hlen⟩ := hstored.memRead (a := 0) (Nat.zero_add _).le
  obtain ⟨m0, rest, rfl⟩ := List.exists_cons_of_length_pos (l := bytes) (by omega)
  rw [List.length_cons] at hlen
  obtain ⟨i, hst, hwf, henc⟩ := exists_single_row m0 (rest := rest) (by omega)
  exact ⟨i, hst, hwf, henc ▸ fetchSingle_of_memRead hread h7⟩

/-- What SEND_FF fetches is a well-formed frame of TX.FF (R46). -/
theorem fetchFirst_row {s : State} (h : phaseReady .sendFF s) :
    ∃ i : Instr, i.stage = .transmit ∧ i.wf = true ∧ fetchFirst s = .ok (encode i) := by
  obtain ⟨hstored, h8⟩ := h
  obtain ⟨bytes, hread, hlen⟩ := hstored.memRead (a := 0) (n := 6) (by omega)
  exact ⟨.txFF s.rspLen bytes, rfl, by simp [Instr.wf, h8, hlen], fetchFirst_of_memRead hread⟩

/-- What SEND_CF fetches is a well-formed frame of TX.CF (R47). -/
theorem fetchConsecutive_row {s : State} (h : phaseReady .sendCF s) :
    ∃ i : Instr, i.stage = .transmit ∧ i.wf = true ∧ fetchConsecutive s = .ok (encode i) := by
  obtain ⟨hstored, -, -, hlt, -, hseq⟩ := h
  obtain ⟨bytes, hread, hlen⟩ :=
    hstored.memRead (a := s.txOff.toNat) (n := min 7 (s.rspLen.toNat - s.txOff.toNat)) (by omega)
  have hne : s.txSeq ≠ 0#4 := by
    intro h0
    rw [h0] at hseq
    exact Nat.succ_ne_zero _ hseq.symm
  have hfits : tailFits bytes = true := by
    rw [tailFits, Bool.and_eq_true_iff, decide_eq_true_eq, decide_eq_true_eq]
    omega
  exact ⟨.txCF s.txSeq bytes, rfl, Bool.and_eq_true_iff.mpr ⟨decide_eq_true hne, hfits⟩, fetchConsecutive_of_memRead hread⟩

/-- A phase of the segmenter whose fetch is the frame of a transmit row answers a next state. -/
theorem runFetched_transmit_next {fetched : Except Result (List Byte)} (s : State)
    (h : ∃ i : Instr, i.stage = .transmit ∧ i.wf = true ∧ fetched = .ok (encode i)) :
    ∃ t, runFetched .transmit fetched s = .next t := by
  obtain ⟨i, hst, hwf, hf⟩ := h
  rw [← hst, runFetched_encode hwf hf]
  exact exec_next i s

/-- From a state of the invariant each phase answers a next state (R13, R53). -/
theorem Inv.runPhase_next {s : State} {p : Phase} (h : Inv s) (hready : phaseReady p s) : ∃ t, runPhase p s = .next t := by
  cases p with
  | idle =>
    match hport : s.rxPort with
    | [] => exact ⟨s, by simp only [runPhase, acceptFrame, hport]⟩
    | f :: later =>
      have hf : f.data.length ≤ 8 := h.rxPort f (by rw [hport]; exact List.mem_cons_self)
      exact ⟨_, by simp only [runPhase, acceptFrame, hport]; exact if_neg (Nat.not_lt.mpr hf)⟩
  | filter =>
    rw [runPhase, filterFrame]
    split <;> exact ⟨_, rfl⟩
  | decode =>
    by_cases h2 : 2 ≤ s.rxLen.toNat
    · have hlen := rxBytes_length h.rxLen
      have h8 := h.rxLen
      match hb : s.rxBytes, hlen with
      | [], hlen | [_], hlen => simp at hlen; omega
      | b0 :: b1 :: rest, hlen =>
        rw [List.length_cons, List.length_cons] at hlen
        rw [runPhase_decode h2 h8 (hb ▸ decode_receive b0 b1 (by omega))]
        exact exec_next _ s
    · exact ⟨_, if_pos (decide_eq_true (Nat.lt_of_not_le h2))⟩
  | dispatch =>
    rw [runPhase_dispatch h.reqNParam]
    exact exec_next _ s
  | handler =>
    match hport : s.hpPort with
    | [] => exact ⟨s, by simp only [runPhase, takeAnswer, hport]⟩
    | answer :: later =>
      simp only [runPhase, takeAnswer, hport]
      exact acceptReply_next _ _
  | encode =>
    obtain ⟨h1, -⟩ := hready
    obtain ⟨h0, -⟩ | ⟨-, -, he⟩ | ⟨-, he⟩ := chooseSegmentation_cases s
    · rw [h0] at h1; cases h1
    · exact ⟨_, he⟩
    · exact ⟨_, he⟩
  | sendSF => exact runFetched_transmit_next s (fetchSingle_row hready)
  | sendFF => exact runFetched_transmit_next s (fetchFirst_row hready)
  | sendCF => exact runFetched_transmit_next s (fetchConsecutive_row hready)

/-- Settles O45: with a legal configuration a step is a reset or a phase, and each answers a next state. -/
theorem blockNeverStops : Obligations.BlockNeverStops := by
  intro s h
  cases hr : s.resetLine with
  | true => exact ⟨applyReset s, by simp [step, h.configuration, hr]⟩
  | false =>
    obtain ⟨p, hp, hready⟩ := h.phase
    rw [step_eq_runPhase h.configuration hr (code_of_ofCode hp)]
    exact h.runPhase_next hready

/-! ## TX.NR -/

/-- Settles O30: TX.NR is the error builder's message and one accepted Emit (R76, R93). -/
theorem negativeResponseIsEmitted : Obligations.NegativeResponseIsEmitted := by
  intro s sid nrc later hport
  have hexec := (exec_transmit (i := .txNR sid nrc) rfl s).trans (emit_ok hport)
  have hread := Memory.read_writeBytes s.rspBuf 0
  refine ⟨_, hexec, hread 0 _, hread 1 _, hread 2 _, fun a ha => ?_, rfl⟩
  exact Memory.read_writeBytes_outside _ fun hin => Nat.not_lt.mpr ha hin.2

/-! ## Placed frames -/

/-- RX_DATA holds a latched classic frame, whole (R56). -/
theorem latchFrame_rxBytes {f : Frame} (h : f.data.length ≤ 8) (s : State) :
    (s.latchFrame f).rxLen.toNat = f.data.length ∧ (s.latchFrame f).rxBytes = f.data := by
  have hlen : (s.latchFrame f).rxLen.toNat = f.data.length := by
    rw [latchFrame_rxLen, BitVec.toNat_ofNat, Nat.mod_eq_of_lt (by omega)]
  rw [State.rxBytes, hlen]
  exact ⟨rfl, take_loadRxData f.data s.rxData h⟩

/-- REQ_PARAM holds the parameters of a latched request (R64). -/
theorem latchRequest_reqParams {params : List Byte} (h : params.length ≤ 6) (sid : Byte) (s : State) :
    (s.latchRequest sid params).reqNParam.toNat = params.length ∧ (s.latchRequest sid params).reqParams = params := by
  have hlen : (s.latchRequest sid params).reqNParam.toNat = params.length := by
    rw [latchRequest_reqNParam, BitVec.toNat_ofNat, Nat.mod_eq_of_lt (by omega)]
  rw [State.reqParams, hlen]
  exact ⟨rfl, take_loadReqParam params s.reqParam h⟩

/-- Bytes just written below RSP_LEN are read back (R27). -/
theorem memRead_written {s : State} {m : Memory} {a : Nat} {v : List Byte} (hbuf : s.rspBuf = m.writeBytes a v)
    (hl : a + v.length ≤ s.rspLen.toNat) : memRead a v.length s = .ok v := by
  have hread : ∀ i, i < v.length → s.rspBuf.read (a + i) = v[i]? := fun i hi => by
    rw [hbuf, Memory.read_writeBytes, if_pos (by omega), Nat.add_sub_cancel_left]
  obtain ⟨bs, hbs, hlen, hget⟩ := memRead_ok hl fun i hi => by
    rw [hread i hi, List.getElem?_eq_getElem hi]
    exact Option.some_ne_none _
  have heq : bs = v := List.ext_getElem? fun i => by
    by_cases hi : i < v.length
    · rw [← hget i hi, hread i hi]
    · rw [List.getElem?_eq_none (by omega), List.getElem?_eq_none (by omega)]
  rw [hbs, heq]

@[simp] theorem placeOutbound_configurationLegal (bytes : List Byte) (s : State) :
    (placeOutbound bytes s).configurationLegal = s.configurationLegal := by
  unfold placeOutbound
  split_ifs <;> rfl

@[simp] theorem placeOutbound_resetLine (bytes : List Byte) (s : State) :
    (placeOutbound bytes s).resetLine = s.resetLine := by
  unfold placeOutbound
  split_ifs <;> rfl

/-- SEND_SF fetches a placed single frame (R87). -/
theorem placeOutbound_single (m0 : Byte) {rest : List Byte} (hl : rest.length ≤ 6) (s : State) :
    (placeOutbound (singleFrame m0 rest) s).phase = Phase.sendSF.code
      ∧ fetchSingle (placeOutbound (singleFrame m0 rest) s) = .ok (singleFrame m0 rest) := by
  have hplace : placeOutbound (singleFrame m0 rest) s = State.setPhase .sendSF
      { s with rspLen := BitVec.ofNat 12 (rest.length + 1), rspBuf := s.rspBuf.writeBytes 0 (m0 :: rest) } :=
    if_pos (pciType_pciByte 0x0#4 _)
  have hlen : (placeOutbound (singleFrame m0 rest) s).rspLen.toNat = (m0 :: rest).length := by
    rw [hplace, setPhase_rspLen, BitVec.toNat_ofNat, Nat.mod_eq_of_lt (by omega), List.length_cons]
  have hbuf : (placeOutbound (singleFrame m0 rest) s).rspBuf = s.rspBuf.writeBytes 0 (m0 :: rest) := by
    rw [hplace, setPhase_rspBuf]
  refine ⟨by rw [hplace, setPhase_phase], fetchSingle_of_memRead ?_ (hlen.trans_le (Nat.succ_le_succ hl))⟩
  rw [hlen]
  exact memRead_written hbuf (by omega)

/-- SEND_FF fetches a placed first frame (R88). -/
theorem placeOutbound_first {tlen : BitVec 12} {data : List Byte} (h8 : 8 ≤ tlen.toNat) (h6 : data.length = 6) (s : State) :
    (placeOutbound (encode (.txFF tlen data)) s).phase = Phase.sendFF.code
      ∧ fetchFirst (placeOutbound (encode (.txFF tlen data)) s) = .ok (encode (.txFF tlen data)) := by
  have hplace : placeOutbound (encode (.txFF tlen data)) s = State.setPhase .sendFF
      { s with rspLen := tlen, rspBuf := s.rspBuf.writeBytes 0 data } := by
    simp [placeOutbound, encode]
  rw [hplace]
  have hl : 0 + data.length ≤ tlen.toNat := by omega
  exact ⟨rfl, fetchFirst_of_memRead (h6 ▸ memRead_written rfl hl)⟩

/-- SEND_CF fetches a placed consecutive frame (R89). -/
theorem placeOutbound_consecutive (n : Nibble) {data : List Byte} (h7 : data.length ≤ 7) (s : State) :
    (placeOutbound (encode (.txCF n data)) s).phase = Phase.sendCF.code
      ∧ fetchConsecutive (placeOutbound (encode (.txCF n data)) s) = .ok (encode (.txCF n data)) := by
  have hplace : placeOutbound (encode (.txCF n data)) s = State.setPhase .sendCF
      { s with rspLen := BitVec.ofNat 12 (5 + (data.length + 1)), rspBuf := s.rspBuf.writeBytes 6 data
               txOff := 6#12, txSeq := n } := by
    simp [placeOutbound, encode]
  have hlen : (BitVec.ofNat 12 (5 + (data.length + 1))).toNat = 6 + data.length := by
    rw [BitVec.toNat_ofNat, Nat.mod_eq_of_lt (by omega)]
    omega
  have hcount : min 7 (6 + data.length - 6) = data.length := by omega
  rw [hplace]
  refine ⟨rfl, fetchConsecutive_of_memRead ?_⟩
  rw [setPhase_rspLen, hlen]
  exact (congrArg (memRead 6 · _) hcount).trans (memRead_written rfl (by rw [setPhase_rspLen, hlen]))

section
variable {s : State} (hc : s.configurationLegal = true) (hr : s.resetLine = false)
include hc hr

/-- A placed received frame is the one DECODE executes. -/
theorem step_placeReceived {bytes : List Byte} {i : Instr} (h : decode .receive bytes = .ok i) :
    step (placeReceived bytes s) = exec i (placeReceived bytes s) := by
  obtain ⟨b0, b1, rest, rfl, hl⟩ := decode_eq_ok h
  have h8 : (b0 :: b1 :: rest).length ≤ 8 := by rw [List.length_cons, List.length_cons]; omega
  obtain ⟨hlen, hbytes⟩ := latchFrame_rxBytes (f := { id := s.cfgReqId, data := b0 :: b1 :: rest }) h8 s
  calc step (placeReceived (b0 :: b1 :: rest) s)
      = runPhase .decode (placeReceived (b0 :: b1 :: rest) s) := step_eq_runPhase hc hr rfl
    _ = exec i (placeReceived (b0 :: b1 :: rest) s) :=
      runPhase_decode (hlen.symm ▸ Nat.le_add_left 2 _) (hlen.trans_le h8) ((congrArg _ hbytes).trans h)

/-- A placed request is the one DISPATCH executes, its padding dropped (R64). -/
theorem step_placeRequest {bytes : List Byte} {i : Instr} (h : decode .dispatch bytes = .ok i) :
    step (placeRequest bytes s) = exec i (placeRequest bytes s) := by
  obtain ⟨b0, b1, rest, rfl, hl, rfl⟩ := decode_dispatch_inversion h
  rw [Nat.add_comm 2]
  have hfits : (rest.take (paramCount (pciNibble b0) (rest.length + 2))).length ≤ 6 :=
    (List.length_take_le' _ rest).trans hl
  obtain ⟨hlen, hparams⟩ := latchRequest_reqParams hfits b1 s
  calc step (placeRequest (b0 :: b1 :: rest) s)
      = runPhase .dispatch (placeRequest (b0 :: b1 :: rest) s) := step_eq_runPhase hc hr rfl
    _ = exec (decodeService b1 (placeRequest (b0 :: b1 :: rest) s).reqParams) _ := runPhase_dispatch (hlen.trans_le hfits)
    _ = _ := congrArg (fun params => exec (decodeService b1 params) _) hparams

/-- A placed outbound frame is the one its SEND_* phase executes. -/
theorem step_placeOutbound {i : Instr} (hst : i.stage = .transmit) (hwf : i.wf = true) :
    step (placeOutbound (encode i) s) = exec i (placeOutbound (encode i) s) := by
  have hc' := (placeOutbound_configurationLegal (encode i) s).trans hc
  have hr' := (placeOutbound_resetLine (encode i) s).trans hr
  cases i with
  | txSF m0 rest =>
    obtain ⟨hfits, -⟩ := Bool.and_eq_true_iff.mp hwf
    obtain ⟨hp, hf⟩ := placeOutbound_single m0 ((restFits_iff rest).mp hfits) s
    exact (step_eq_runPhase hc' hr' hp).trans (runFetched_encode hwf hf _)
  | txFF tlen data =>
    obtain ⟨h8, h6⟩ := Bool.and_eq_true_iff.mp hwf
    obtain ⟨hp, hf⟩ := placeOutbound_first (of_decide_eq_true h8) (of_decide_eq_true h6) s
    exact (step_eq_runPhase hc' hr' hp).trans (runFetched_encode hwf hf _)
  | txCF n data =>
    obtain ⟨-, htail⟩ := Bool.and_eq_true_iff.mp hwf
    obtain ⟨b1, more, rfl, hl⟩ := (tailFits_iff data).mp htail
    obtain ⟨hp, hf⟩ := placeOutbound_consecutive n (data := b1 :: more) (Nat.succ_le_succ hl) s
    exact (step_eq_runPhase hc' hr' hp).trans (runFetched_encode hwf hf _)
  | txNR sid nrc =>
    obtain ⟨hp, hf⟩ := placeOutbound_single 0x7F#8 (rest := [sid, nrc]) (by decide : 2 ≤ 6) s
    rw [← encode_txNR] at hp hf
    exact (step_eq_runPhase hc' hr' hp).trans (runFetched_encode hwf hf _)
  | _ => cases hst

/-- A frame placed for a stage is what the next step executes, as the instruction it decodes to there. -/
theorem step_placeFrame {st : Stage} {bytes : List Byte} {i : Instr} (h : decode st bytes = .ok i) :
    step (placeFrame st bytes s) = exec i (placeFrame st bytes s) := by
  cases st with
  | receive => exact step_placeReceived hc hr h
  | dispatch => exact step_placeRequest hc hr h
  | transmit =>
    obtain ⟨rfl, hwf, hst⟩ := decode_inversion (by decide : Stage.transmit ≠ .dispatch) h
    exact step_placeOutbound hc hr hst hwf

end

/-- A table word that reads as an instruction is a word whose frame decodes to it. -/
theorem decodeTableWord_eq_some {nbits w : Nat} {i : Instr} (h : decodeTableWord nbits w = some i) :
    w < 2 ^ nbits
      ∧ decode (tableStage (keyByte0 w) (keyByte1 w)) (tableFrame (keyByte0 w) (keyByte1 w)) = .ok i := by
  unfold decodeTableWord at h
  split at h
  · rename_i hw
    split at h
    · cases h; exact ⟨hw.2, ‹_›⟩
    · cases h
  · cases h

/-- Settles O9: a table word is placed as its frame. -/
theorem placedWordIsRunByTheNextStep : Obligations.PlacedWordIsRunByTheNextStep := by
  intro s w i hc hr h
  obtain ⟨hlt, hd⟩ := decodeTableWord_eq_some h
  rw [State.withFetchWord, Nat.mod_eq_of_lt hlt]
  exact step_placeFrame hc hr hd

end Sys2Proof.Machine
end

section
/-! SUPPORT. The family of 40_rx_parser.md: acceptance (R56), the filter (R57), DECODE's checks in R63's order and the
extraction of R64. A step in DECODE is exec of the received bytes' row, and R63's order is the rows' and phases' own. -/

namespace Sys2Proof.Machine

/-! ## CFG_POLICY as a number -/

/-- AVAILABLE_BASIS is the high bit of CFG_POLICY (R18). -/
theorem wholeFrameBasis_iff (policy : BitVec 2) : wholeFrameBasis policy = true ↔ ¬ policy.toNat / 2 = 0 := by
  revert policy; decide

/-- SF_ZERO_LENGTH_POLICY is the low bit of CFG_POLICY (R18). -/
theorem zeroLengthDispatches_iff (policy : BitVec 2) : zeroLengthDispatches policy = true ↔ policy.toNat % 2 = 1 := by
  revert policy; decide

/-- The available bytes, by the high bit of CFG_POLICY (R61). -/
theorem availableBytes_eq (policy : BitVec 2) (n : Nat) :
    availableBytes policy n = if policy.toNat / 2 = 0 then n - 1 else n := by
  simp only [availableBytes, wholeFrameBasis_iff, ite_not]

/-! ## Acceptance and the filter -/

/-- IDLE takes a classic frame from the port (R56). -/
theorem acceptFrame_cons {s : State} {f : Frame} {later : List Frame} (hport : s.rxPort = f :: later)
    (hf : f.data.length ≤ 8) :
    acceptFrame s = .next (State.setPhase .filter (State.latchFrame f { s with rxPort := later })) := by
  simp only [acceptFrame, hport]
  exact if_neg (Nat.not_lt.mpr hf)

/-! A transmit row leaves the RX port alone. -/

@[simp] theorem emitBase_rxPort (i : Instr) (s : State) : (emitBase i s).rxPort = s.rxPort := by cases i <;> rfl

@[simp] theorem emitDone_rxPort (i : Instr) (s : State) : (emitDone i s).rxPort = s.rxPort := by
  obtain ⟨_, _, _, _, he⟩ := emitDone_frame i s
  rw [he]

/-- Settles O10: acceptance is the latch, and no effect of a step outside IDLE takes a frame. -/
theorem acceptanceLatchesTheFrame : Obligations.AcceptanceLatchesTheFrame := by
  refine ⟨fun s f later ⟨hc, hr, hp⟩ hport hf => ?_, fun s t h hidle => ?_⟩
  · obtain ⟨hlen, hbytes⟩ := latchFrame_rxBytes hf { s with rxPort := later }
    exact ⟨_, (step_eq_runPhase hc hr hp).trans (acceptFrame_cons hport hf), rfl, hlen, hbytes, rfl, rfl, rfl⟩
  · cases step_effect h with
    | accepted hp => exact absurd hp hidle
    | noStatus | emitted | failed => simp
    | _ => rfl

/-- Settles O11, by the filter's one test. -/
theorem filterComparesTheIdentifier : Obligations.FilterComparesTheIdentifier := by
  intro s ⟨hc, hr, hp⟩
  have hstep : step s = filterFrame s := step_eq_runPhase hc hr hp
  exact ⟨fun hne => hstep.trans (if_neg hne), fun heq => hstep.trans (if_pos heq)⟩

/-! ## DECODE -/

/-- Settles O12: the length is checked before the PCI byte is read. -/
theorem shortFramesAreDropped : Obligations.ShortFramesAreDropped := by
  intro s ⟨hc, hr, hp⟩ hshort
  exact (step_eq_runPhase hc hr hp).trans (if_pos (decide_eq_true hshort))

/-- Settles O6: a running machine's step is its phase, and DECODE's is `runPhase_decode`. -/
theorem decodePhaseRunsReceivedInstruction : Obligations.DecodePhaseRunsReceivedInstruction :=
  fun _ _ ⟨hc, hr, hp⟩ h2 h8 hd => (step_eq_runPhase hc hr hp).trans (runPhase_decode h2 h8 hd)

/-- Two received bytes or more begin with RX_DATA[0] (R19). -/
theorem rxBytes_eq_cons {s : State} (h2 : 2 ≤ s.rxLen.toNat) (h8 : s.rxLen.toNat ≤ 8) :
    ∃ b1 rest, s.rxBytes = s.rxData[0] :: b1 :: rest ∧ 2 + rest.length = s.rxLen.toNat := by
  have hlen := rxBytes_length h8
  have hhead : s.rxBytes[0]? = some s.rxData[0] := by
    rw [State.rxBytes, List.getElem?_take_of_lt (by omega)]
    simp
  match hb : s.rxBytes, hlen with
  | [], hlen | [_], hlen => simp at hlen; omega
  | b0 :: b1 :: rest, hlen =>
    rw [hb] at hhead
    cases hhead
    exact ⟨b1, rest, rfl, (Nat.add_comm 2 _).trans hlen⟩

/-- DECODE executes the row of RX_DATA[0] with the received bytes after it (R50, R58). -/
theorem step_decode {s : State} (hs : runsIn .decode s) (h2 : 2 ≤ s.rxLen.toNat) (h8 : s.rxLen.toNat ≤ 8) :
    ∃ b1 rest, 2 + rest.length = s.rxLen.toNat ∧ step s = exec (decodeReceive s.rxData[0] b1 rest) s := by
  obtain ⟨b1, rest, hbytes, hlen⟩ := rxBytes_eq_cons h2 h8
  refine ⟨b1, rest, hlen, decodePhaseRunsReceivedInstruction s _ hs h2 h8 ?_⟩
  rw [hbytes, decode_receive _ _ (by omega)]

/-- Settles O13: RX_DATA[0] selects a row that drops. -/
theorem nonSingleFramesAreDropped : Obligations.NonSingleFramesAreDropped := by
  intro s hs h2 h8 htype
  obtain ⟨b1, rest, -, hstep⟩ := step_decode hs h2 h8
  rw [hstep, exec_decodeReceive_drop htype]

/-- DECODE executes RX.SF where the PCI type is 0, with the low nibble of RX_DATA[0] as L (R45, R65). -/
theorem step_decode_single {s : State} (hs : runsIn .decode s) (h2 : 2 ≤ s.rxLen.toNat) (h8 : s.rxLen.toNat ≤ 8)
    (htype : s.rxData[0].toNat / 16 = 0) :
    ∃ b1 rest, 2 + rest.length = s.rxLen.toNat
      ∧ step s = exec (.rxSF (BitVec.ofNat 4 s.rxData[0].toNat) b1 rest) s := by
  obtain ⟨b1, rest, hlen, hstep⟩ := step_decode hs h2 h8
  exact ⟨b1, rest, hlen, by rw [hstep, ← decodeReceive_sf, ← eq_pciByte htype]⟩

/-! ## The receive rows -/

/-- Settles O14: each of the five rows is the drop. -/
theorem multiFrameRowsDrop : Obligations.MultiFrameRowsDrop := fun s =>
  have hdrop := raiseDrop_eq .dropNotSingleFrame s
  ⟨fun _ _ => hdrop, fun _ _ => hdrop, fun _ _ => hdrop, fun _ _ _ => hdrop, fun _ _ _ => hdrop⟩

/-- Settles O15: the first check of DecodeRequest. -/
theorem declaredLengthIsChecked : Obligations.DeclaredLengthIsChecked := by
  intro s l sid rest hlong
  rw [← availableBytes_eq] at hlong
  exact if_pos hlong

/-- RX.SF extracts a request whose L is available and, where it is 0, dispatched by the policy (R62, R64). -/
theorem exec_rxSF_extracts {s : State} {l : Nibble} (sid : Byte) {rest : List Byte}
    (hl : l.toNat ≤ availableBytes s.cfgPolicy (2 + rest.length))
    (hzero : l = 0#4 → zeroLengthDispatches s.cfgPolicy = true) :
    exec (.rxSF l sid rest) s
      = .next ((s.latchRequest sid (rest.take (paramCount l (2 + rest.length)))).setPhase .dispatch) := by
  obtain ⟨hlong, -⟩ | ⟨h0, hdrop, -⟩ | ⟨-, -, he⟩ := decodeRequest_cases l sid rest s
  · exact absurd hl (Nat.not_le.mpr hlong)
  · exact absurd (hzero h0) (Bool.eq_false_iff.mp hdrop)
  · exact he

/-- Settles O16: no L of 0 is over the available bytes, so the policy bit decides. -/
theorem zeroLengthFollowsThePolicy : Obligations.ZeroLengthFollowsThePolicy := by
  intro s sid rest
  refine ⟨fun hpolicy => ?_, fun hpolicy => ?_⟩
  · have hdrop : ¬ zeroLengthDispatches s.cfgPolicy = true := by rw [zeroLengthDispatches_iff]; omega
    obtain ⟨hlong, -⟩ | ⟨-, -, he⟩ | ⟨-, hzero, -⟩ := decodeRequest_cases 0#4 sid rest s
    · cases hlong
    · exact he
    · exact absurd (hzero rfl) hdrop
  · have hexec := exec_rxSF_extracts sid (l := 0#4) (rest := rest) (Nat.zero_le _)
      fun _ => (zeroLengthDispatches_iff s.cfgPolicy).mpr hpolicy
    exact ⟨_, hexec, rfl, rfl, rfl, rfl⟩

/-- Settles O17: RX.SF latches the first `paramCount` bytes after the SID. -/
theorem singleFrameIsExtracted : Obligations.SingleFrameIsExtracted := by
  intro s l sid rest hrest hl1 hl
  rw [← availableBytes_eq] at hl
  have hexec := exec_rxSF_extracts sid hl fun h0 => by rw [h0] at hl1; cases hl1
  generalize hparams : rest.take (paramCount l (2 + rest.length)) = params at hexec
  have hcount : params.length = min l.toNat ((2 + rest.length) - 1) - 1 := by
    rw [← hparams, List.length_take, paramCount]; omega
  obtain ⟨hn, hread⟩ := latchRequest_reqParams (params := params) (by omega) sid s
  refine ⟨_, hexec, rfl, hn.trans hcount, hn.trans_le (by omega), fun i hi => ?_,
    (congrArg List.length hread).trans hn.symm, rfl⟩
  have hi : i < paramCount l (2 + rest.length) := hi.trans_eq (hn.trans hcount)
  calc (s.latchRequest sid params).reqParams[i]? = params[i]? := by rw [hread]
    _ = rest[i]? := by rw [← hparams, List.getElem?_take_of_lt hi]

/-! ## The order of the drop causes -/

/-- A run goes on from the next state. -/
theorem runFor_succ {s t : State} (h : step s = .next t) (n : Nat) : runFor (n + 1) s = runFor n t := by
  simp only [runFor, h]

/-- DECODE records the first of its four causes that holds (R63). -/
theorem decode_records_first_cause {s : State} {drop : TxnOutcome} (hs : runsIn .decode s) (h8 : s.rxLen.toNat ≤ 8)
    (hcause : if s.rxLen.toNat < 2 then drop = .dropTooShort
      else if s.rxData[0].toNat / 16 ≠ 0 then drop = .dropNotSingleFrame
      else if availableBytes s.cfgPolicy s.rxLen.toNat < s.rxData[0].toNat % 16 then drop = .dropLengthExceeds
      else s.rxData[0].toNat % 16 = 0 ∧ s.cfgPolicy.toNat % 2 = 0 ∧ drop = .dropZeroLength) :
    step s = .next { s with out := drop, lastOutcome := drop.code, phase := 0x0#4 } := by
  split_ifs at hcause with hshort htype hlong
  · rw [hcause]; exact shortFramesAreDropped s hs hshort
  · rw [hcause]; exact nonSingleFramesAreDropped s hs (Nat.le_of_not_lt hshort) h8 htype
  · obtain ⟨b1, rest, hlen, hstep⟩ := step_decode_single hs (Nat.le_of_not_lt hshort) h8 (not_not.mp htype)
    rw [hcause, hstep]
    exact declaredLengthIsChecked s _ b1 rest (by rwa [← availableBytes_eq, hlen, BitVec.toNat_ofNat])
  · obtain ⟨hzero, hpolicy, rfl⟩ := hcause
    obtain ⟨b1, rest, -, hstep⟩ := step_decode_single hs (Nat.le_of_not_lt hshort) h8 (not_not.mp htype)
    have hl : BitVec.ofNat 4 s.rxData[0].toNat = 0#4 :=
      BitVec.eq_of_toNat_eq ((BitVec.toNat_ofNat _ _).trans hzero)
    rw [hstep, hl]
    exact (zeroLengthFollowsThePolicy s b1 rest).1 hpolicy

/-- Settles O18: the filter's cause ends the first step, DECODE's causes the second. -/
theorem firstDropCauseIsRecorded : Obligations.FirstDropCauseIsRecorded := by
  intro s drop hs h8 hcause
  obtain ⟨hwrong, hright⟩ := filterComparesTheIdentifier s hs
  by_cases hid : s.rxId = s.cfgReqId
  · rw [if_neg (not_not.mpr hid), ← availableBytes_eq] at hcause
    obtain ⟨hc, hr, -⟩ := hs
    have hdecode : runsIn .decode { s with phase := 0x2#4 } := ⟨hc, hr, rfl⟩
    have hdrop := decode_records_first_cause hdecode h8 hcause
    exact ⟨2, .inr rfl, (runFor_succ (hright hid) 1).trans (runFor_succ hdrop 0)⟩
  · rw [if_pos hid] at hcause
    rw [hcause]
    exact ⟨1, .inl rfl, runFor_succ (hwrong hid) 0⟩

end Sys2Proof.Machine
end

section
/-! SUPPORT. The family of 41_dispatcher.md: the dispatch rows (R70..R73), the replies (R74, R75), and the block's waits. A
dispatch row is Dispatch() of its SID; a negative response, whoever raises it, is the one message of the error builder (R76).
-/

namespace Sys2Proof.Machine

/-! ## The dispatch rows -/

/-- Every dispatch row is Dispatch() of the SID it serves (R51, R70). -/
theorem exec_serviceRow {i : Instr} {sid : Byte} {params : List Byte} (h : serviceRow i sid params) (s : State) :
    exec i s = dispatch sid params s := by
  obtain ⟨rfl, rfl⟩ | ⟨rfl, rfl⟩ | ⟨rfl, rfl⟩ | ⟨rfl, rfl⟩ | ⟨rfl, rfl⟩ | ⟨rfl, rfl⟩ | rfl := h <;> rfl

/-- The secondary map answers a dispatch row of the SID it read (R51). -/
theorem decodeService_serviceRow (sid : Byte) (params : List Byte) : serviceRow (decodeService sid params) sid params := by
  unfold decodeService
  split_ifs with h10 h11 h14 h22 h23 h27 <;> simp [serviceRow, *]

/-- Settles O7: DISPATCH executes what the secondary map answers for the request. -/
theorem dispatchPhaseRunsServiceRow : Obligations.DispatchPhaseRunsServiceRow := by
  intro s ⟨hc, hr, hp⟩ h6
  have hwf := (decodeService_wf s.reqSid (params := s.reqParams) ((reqParams_length h6).trans_le h6)).1
  exact ⟨_, decodeService_serviceRow s.reqSid s.reqParams, hwf, (step_eq_runPhase hc hr hp).trans (runPhase_dispatch h6)⟩

/-- The table lookup comes first: an absent SID gets NRC 0x11, whatever its parameters (R71). -/
theorem dispatch_absent {sid : Byte} {s : State} (h : entryPresent (minEntry s.minParamLen sid) = false)
    (params : List Byte) : dispatch sid params s = raiseNrc sid 0x11#8 .respServiceNotSupported s := by
  simp [dispatch, h]

/-- Then the length check: too few parameters get NRC 0x13 (R72). -/
theorem dispatch_short {sid : Byte} {params : List Byte} {s : State}
    (h : entryPresent (minEntry s.minParamLen sid) = true) (hshort : params.length < entryMin (minEntry s.minParamLen sid)) :
    dispatch sid params s = raiseNrc sid 0x13#8 .respIncorrectLength s := by
  simp [dispatch, h, hshort]

/-- Then the handler call (R73). -/
theorem dispatch_calls {sid : Byte} {params : List Byte} {s : State}
    (h : entryPresent (minEntry s.minParamLen sid) = true) (hmin : entryMin (minEntry s.minParamLen sid) ≤ params.length) :
    dispatch sid params s = .next (callHandler sid params s) := by
  simp [dispatch, h, Nat.not_lt.mpr hmin]

/-! ## The negative responses -/

/-- What a negative response leaves behind: the message `[0x7F, sid, code]` for ENCODE, every other byte of RSP_BUF and every
other register as it was (R70, R76). -/
theorem raiseNrc_message (sid code : Byte) (o : TxnOutcome) (s : State) :
    ∃ t, raiseNrc sid code o s = .next t ∧ t.rspLen.toNat = 3 ∧ t.rspBuf.read 0 = some 0x7F#8 ∧ t.rspBuf.read 1 = some sid
      ∧ t.rspBuf.read 2 = some code ∧ (∀ a, 3 ≤ a → t.rspBuf.read a = s.rspBuf.read a) ∧ t.hpLog = s.hpLog
      ∧ t = { s with phase := 0x5#4, rspLen := 3#12, rspBuf := t.rspBuf, out := o } := by
  have hread (b : Nat) := Memory.read_writeBytes s.rspBuf 0 b [0x7F#8, sid, code]
  refine ⟨_, raiseNrc_eq sid code o s, rfl, hread 0, hread 1, hread 2, fun a ha => ?_, rfl, rfl⟩
  exact (hread a).trans (if_neg fun hin => Nat.not_lt.mpr ha hin.2)

/-- Settles O19: the lookup fails, so the row is the negative response with NRC 0x11. -/
theorem absentSidGetsServiceNotSupported : Obligations.AbsentSidGetsServiceNotSupported := by
  intro i sid params s hrow habsent
  rw [exec_serviceRow hrow, dispatch_absent habsent]
  exact raiseNrc_message sid 0x11#8 .respServiceNotSupported s

/-- Settles O20: the length check fails, so the row is the negative response with NRC 0x13. -/
theorem shortRequestGetsIncorrectLength : Obligations.ShortRequestGetsIncorrectLength := by
  intro i sid params s hrow hpresent hshort
  rw [exec_serviceRow hrow, dispatch_short hpresent hshort]
  exact raiseNrc_message sid 0x13#8 .respIncorrectLength s

/-- Settles O21: both checks pass, so the row is the handler call. -/
theorem serviceRowsCallTheHandler : Obligations.ServiceRowsCallTheHandler := by
  intro i sid params s hrow hpresent hmin
  rw [exec_serviceRow hrow, dispatch_calls hpresent hmin]
  rfl

/-! ## The replies -/

/-- A step in HANDLER takes the answer that is there (R73, R100). -/
theorem step_handler {s : State} {answer : HandlerAnswer} {later : List HandlerAnswer} (hs : runsIn .handler s)
    (hport : s.hpPort = answer :: later) :
    step s = acceptReply answer.reply { s with hpPort := later, handlers := answer.after } := by
  obtain ⟨hc, hr, hp⟩ := hs
  rw [step_eq_runPhase hc hr hp, runPhase, takeAnswer, hport]

/-- A positive reply that fits is written behind its SID (R74). -/
theorem acceptReply_positive {data : List Byte} (h : data.length ≤ 4094) (s : State) :
    acceptReply (.positive data) s = .next { s with
      rspLen := BitVec.ofNat 12 (1 + data.length), rspBuf := s.rspBuf.writeBytes 0 (positiveSid s.reqSid :: data)
      out := .respPositive, phase := 0x5#4 } := by
  obtain ⟨_, hd, hlong, -⟩ | ⟨_, hd, -, he⟩ | ⟨_, hd, -⟩ := acceptReply_cases (.positive data) s <;> cases hd
  · exact absurd h (Nat.not_le.mpr hlong)
  · exact he

/-- Settles O22: the message is stored from RSP_BUF[0] on, so byte 1 + i is P[i]. -/
theorem positiveReplyIsAssembled : Obligations.PositiveReplyIsAssembled := by
  intro s data h later hs hport hlen
  refine ⟨_, positiveSid s.reqSid, (step_handler hs hport).trans (acceptReply_positive hlen _), ?_, ?_, ?_, fun i hi => ?_,
    fun a ha => ?_, rfl⟩
  · rw [BitVec.toNat_ofNat]; omega
  · exact BitVec.toNat_add _ _
  · exact (Memory.read_writeBytes _ _ _ _).trans (if_pos (by simp))
  · rw [Memory.read_writeBytes, if_pos (by rw [List.length_cons]; omega), Nat.sub_zero, Nat.add_comm, List.getElem?_cons_succ]
  · exact Memory.read_writeBytes_outside _ (by rw [List.length_cons]; omega)

/-- Settles O23: a negative reply is the negative response with the handler's code. -/
theorem negativeReplyPassesThrough : Obligations.NegativeReplyPassesThrough := by
  intro s code h later hs hport
  obtain ⟨t, he, hlen, h0, h1, h2, hout, -, ht⟩ :=
    raiseNrc_message s.reqSid code .respNegative { s with hpPort := later, handlers := h }
  exact ⟨t, (step_handler hs hport).trans he, hlen, h0, h1, h2, hout, ht⟩

/-! ## Waiting -/

/-- Settles O25: the block does not stop, and of a step's effects only the three waits are possible without an answer. -/
theorem blockWaitsForTheEnvironment : Obligations.BlockWaitsForTheEnvironment := by
  intro s hinv hr hwait
  obtain ⟨t, ht⟩ := blockNeverStops s hinv
  rw [ht]
  cases step_effect ht with
  | noFrame | noAnswer => rfl
  | noStatus hp i hi => rw [hi.emitBase_eq_self hp hinv.rspBuf]
  | reset hreset => rw [hr] at hreset; cases hreset
  | accepted hp _ _ hport | positive hp _ _ _ hport | oversized hp _ _ _ hport | negative hp _ _ _ hport =>
    simp [hp, hport] at hwait
  | emitted hp _ _ _ hport | failed hp _ _ _ hport => obtain hp | hp | hp := hp <;> simp [hp, hport] at hwait
  | wrongId hp | rightId hp | dropped hp | decoded hp | answeredNr hp | called hp | single hp | multi hp =>
    simp [hp] at hwait

end Sys2Proof.Machine
end

section
/-! SUPPORT. The family of 42_tx_segmenter.md: the choice of R85, the transmit rows (R87..R90, R94), the frames a step emits
(R92), and the segmenter's whole run against EncodeMessage (R86). A transmit row is one Emit (`exec_transmit`); the run
is an induction over the consecutive frames that says where it ends, whatever the transport answers. -/

namespace Sys2Proof.Machine

/-! ## ENCODE and HANDLER -/

/-- Settles O26: the three cases of the segmentation choice, the first of them shut out by `1 <= T`. -/
theorem singleFrameIffAtMostSeven : Obligations.SingleFrameIffAtMostSeven := by
  intro s ⟨hc, hr, hp⟩ h1
  have hstep : step s = chooseSegmentation s := step_eq_runPhase hc hr hp
  rw [hstep]
  obtain ⟨h0, -⟩ | ⟨-, h7, he⟩ | ⟨h8, he⟩ := chooseSegmentation_cases s
  · rw [h0] at h1; cases h1
  · exact ⟨_, he, iff_of_true rfl h7, iff_of_false (by decide : 0x6#4 ≠ 0x7#4) (by omega), rfl⟩
  · exact ⟨_, he, iff_of_false (by decide : 0x7#4 ≠ 0x6#4) (by omega), iff_of_true rfl h8, rfl⟩

/-- Settles O48: the contract bounds a positive reply by 4094 bytes, so the reply is no fault. -/
theorem contractAnswersNeverFault : Obligations.ContractAnswersNeverFault := by
  intro s hs hallowed hport
  obtain ⟨a, later, hport⟩ := List.exists_cons_of_ne_nil hport
  obtain ⟨d, hbounded, -⟩ := hallowed a later hport
  rw [step_handler hs hport]
  obtain ⟨data, hd, hlong, -⟩ | ⟨_, -, -, he⟩ | ⟨_, -, he⟩ :=
    acceptReply_cases a.reply { s with hpPort := later, handlers := a.after }
  · rw [hd, replyBounded, decide_eq_true_eq] at hbounded
    exact absurd hlong (Nat.not_lt.mpr hbounded)
  · exact ⟨_, he, rfl, rfl⟩
  · exact ⟨_, he, rfl, rfl⟩

/-! ## The transmit rows -/

@[simp] theorem emitBase_txPort (i : Instr) (s : State) : (emitBase i s).txPort = s.txPort := by cases i <;> rfl

@[simp] theorem emitBase_txLog (i : Instr) (s : State) : (emitBase i s).txLog = s.txLog := by cases i <;> rfl

@[simp] theorem emitBase_cfgRespId (i : Instr) (s : State) : (emitBase i s).cfgRespId = s.cfgRespId := by cases i <;> rfl

@[simp] theorem emitDone_txPort (i : Instr) (s : State) : (emitDone i s).txPort = s.txPort := by
  obtain ⟨_, _, _, _, he⟩ := emitDone_frame i s
  rw [he]

@[simp] theorem emitDone_txLog (i : Instr) (s : State) : (emitDone i s).txLog = s.txLog := by
  obtain ⟨_, _, _, _, he⟩ := emitDone_frame i s
  rw [he]

/-- Before its frame is presented a transmit row writes PHASE, and TX.NR its message; nothing else (R76, R87). -/
theorem emitBase_frame (i : Instr) (s : State) :
    ∃ phase len buf, emitBase i s = { s with phase := phase, rspLen := len, rspBuf := buf } := by
  cases i <;> exact ⟨_, _, _, rfl⟩

/-- A transmit row whose frame the transport takes (R93). -/
theorem exec_transmit_ok {i : Instr} {s : State} {later : List TxStatus} (hst : i.stage = .transmit)
    (hport : s.txPort = .ok :: later) :
    exec i s = .next (emitDone i ((emitBase i s).sent (encode i) .ok later)) := by
  rw [exec_transmit hst, emit_ok ((emitBase_txPort i s).trans hport)]

/-- A transmit row whose frame the transport does not take (R94). -/
theorem exec_transmit_fail {i : Instr} {s : State} {later : List TxStatus} (hst : i.stage = .transmit)
    (hport : s.txPort = .fail :: later) :
    exec i s = .next (abortSend ((emitBase i s).sent (encode i) .fail later)) := by
  rw [exec_transmit hst, emit_fail ((emitBase_txPort i s).trans hport)]

/-- Settles O27: TX.SF's row, with its PCI byte as the message's length. -/
theorem singleFrameIsEmitted : Obligations.SingleFrameIsEmitted := by
  intro s m0 rest later hl hport
  have hpci : pciByte 0x0#4 (BitVec.ofNat 4 (1 + rest.length)) = BitVec.ofNat 8 (1 + rest.length) :=
    pciByte_single (by omega)
  rw [exec_transmit_ok rfl hport, ← hpci]
  rfl

/-- TX.FF whose frame the transport takes (R88). -/
theorem exec_txFF_ok {s : State} {later : List TxStatus} (hport : s.txPort = .ok :: later) (tlen : BitVec 12)
    (data : List Byte) :
    exec (.txFF tlen data) s
      = .next (((s.sent (encode (.txFF tlen data)) .ok later).setTx 6#12 1#4).setPhase .sendCF) :=
  exec_transmit_ok rfl hport

/-- Settles O28: TX.FF's row, with its two length bytes as numbers. -/
theorem firstFrameIsEmitted : Obligations.FirstFrameIsEmitted := by
  intro s tlen data later hport
  rw [← pciByte_first, ← lengthLow_eq]
  exact exec_txFF_ok hport tlen data

/-- TX.CF whose frame the transport takes: SEND_CF goes on, or the transaction ends (R89, R93). -/
theorem exec_txCF_ok_cases {s : State} {later : List TxStatus} (hport : s.txPort = .ok :: later) (n : Nibble)
    {data : List Byte} {off : BitVec 12} (hoff : off = s.txOff + BitVec.ofNat 12 data.length) :
    (off.toNat < s.rspLen.toNat
      ∧ exec (.txCF n data) s
        = .next (((s.sent (encode (.txCF n data)) .ok later).setTx off (nextSeq n)).setPhase .sendCF))
    ∨ (s.rspLen.toNat ≤ off.toNat
      ∧ exec (.txCF n data) s
        = .next (endTransaction ((s.sent (encode (.txCF n data)) .ok later).setTx off (nextSeq n)))) := by
  subst hoff
  have hexec := exec_transmit_ok (i := .txCF n data) rfl hport
  obtain ⟨hmore, he⟩ | ⟨hend, he⟩ := afterCF_cases data.length n ((s.setPhase .sendCF).sent (encode (.txCF n data)) .ok later)
  · exact .inl ⟨hmore, hexec.trans (congrArg _ he)⟩
  · exact .inr ⟨hend, hexec.trans (congrArg _ he)⟩

/-- TX_OFF advances by the bytes sent; it does not wrap (R89). -/
theorem advance_toNat {off : BitVec 12} {n : Nat} (h : off.toNat + n ≤ 4095) :
    (off + BitVec.ofNat 12 n).toNat = off.toNat + n := by
  rw [BitVec.toNat_add, BitVec.toNat_ofNat]; omega

/-- Settles O29: TX.CF's two cases, with TX_OFF as a number. -/
theorem consecutiveFrameIsEmitted : Obligations.ConsecutiveFrameIsEmitted := by
  intro s n data later hport hfits
  have hoff := advance_toNat hfits
  obtain ⟨hmore, he⟩ | ⟨hend, he⟩ := exec_txCF_ok_cases hport n (data := data) rfl <;> rw [he, ← pciByte_consecutive]
  · rw [hoff] at hmore
    exact ⟨_, rfl, hoff, nextSeq_toNat n, fun _ => ⟨rfl, rfl⟩, fun hle => absurd hmore (Nat.not_lt.mpr hle), rfl⟩
  · rw [hoff] at hend
    exact ⟨_, rfl, hoff, nextSeq_toNat n, fun hlt => absurd hend (Nat.not_le.mpr hlt), fun _ => ⟨rfl, rfl⟩, rfl⟩

/-- Settles O31: every transmit row is one failed Emit; only TX.NR has written RSP_* before it. -/
theorem sendFailureAborts : Obligations.SendFailureAborts := by
  intro s i later hst hport
  refine ⟨_, exec_transmit_fail hst hport, ?_⟩
  cases i with
  | txSF | txFF | txCF => exact ⟨rfl, rfl, fun _ => ⟨rfl, rfl⟩, fun _ _ h => nomatch h⟩
  | txNR sid nrc =>
    refine ⟨rfl, rfl, fun hne => absurd rfl (hne sid nrc), fun _ _ h => ?_⟩
    cases h
    have hread := Memory.read_writeBytes s.rspBuf 0
    exact ⟨rfl, hread 0 _, hread 1 _, hread 2 _, fun a ha => Memory.read_writeBytes_outside _ (by simpa using ha)⟩
  | _ => cases hst

/-- Settles O36: of a step's effects only an answered Emit writes the TX log or takes from the TX port. -/
theorem emittedFramesAreOutboundFrames : Obligations.EmittedFramesAreOutboundFrames := by
  intro s t h
  cases step_effect h with
  | emitted hp i hi later hport =>
    exact .inr ⟨{ frame := { id := s.cfgRespId, data := encode i }, status := .ok }, i, by simp, by simp [hport], rfl, rfl,
      hi.wf, hi.stage, hp⟩
  | failed hp i hi later hport =>
    exact .inr ⟨{ frame := { id := s.cfgRespId, data := encode i }, status := .fail }, i, by simp, by simp [hport], rfl, rfl,
      hi.wf, hi.stage, hp⟩
  | noStatus => exact .inl ⟨by simp, by simp⟩
  | _ => exact .inl ⟨rfl, rfl⟩

/-! ## The segmenter's phases run the transmit rows -/

/-- Settles O8: each phase fetches the named bytes from the stored message, and runs what they decode to. -/
theorem sendPhasesRunOutboundInstruction : Obligations.SendPhasesRunOutboundInstruction := by
  intro s i m hc hr hl hm
  refine ⟨fun hp hd => ?_, fun hp h6 hd => ?_, fun hp hoff hd => ?_⟩
  · rw [step_eq_runPhase (p := .sendSF) hc hr hp, runPhase, fetchSingle_eq hm hl, runFetched_ok hd]
  · rw [step_eq_runPhase (p := .sendFF) hc hr hp, runPhase, fetchFirst_eq hm hl h6, runFetched_ok hd]
  · rw [step_eq_runPhase (p := .sendCF) hc hr hp, runPhase, fetchConsecutive_eq hm hl hoff, runFetched_ok hd]

/-- A running machine with the message `m` in RSP_* (R21). -/
structure runsWith (p : Phase) (m : List Byte) (s : State) : Prop where
  runs : runsIn p s
  length : m.length = s.rspLen.toNat
  bytes : s.rspBuf.readBytes 0 m.length = some m

/-- SEND_SF executes the row of the message's single frame, TX.SF or TX.NR (R45, R48, R87). -/
theorem runsWith.step_single {m : List Byte} {s : State} (h : runsWith .sendSF m s) (h1 : 1 ≤ m.length)
    (h7 : m.length ≤ 7) :
    ∃ i : Instr, i.stage = .transmit ∧ encode i = BitVec.ofNat 8 m.length :: m ∧ step s = exec i s
      ∧ emitDone i = endTransaction := by
  obtain ⟨⟨hc, hr, hp⟩, hlen, hbytes⟩ := h
  obtain ⟨i, hst, hwf, hframe⟩ : ∃ i : Instr, i.stage = .transmit ∧ i.wf = true
      ∧ encode i = BitVec.ofNat 8 m.length :: m := by
    obtain ⟨m0, rest, rfl⟩ := List.exists_cons_of_length_pos h1
    rw [List.length_cons, Nat.add_comm] at h7 ⊢
    rw [← pciByte_single h7]
    exact exists_single_row m0 (by omega)
  have hd := hframe ▸ decode_encode_transmit hst hwf
  refine ⟨i, hst, hframe, (sendPhasesRunOutboundInstruction s i m hc hr hlen hbytes).1 hp hd, ?_⟩
  have hsends := fetchSingle_sends hp _ i (fetchSingle_eq hbytes hlen) hd
  obtain ⟨_, -, ⟨_, _, rfl, -⟩ | ⟨_, _, rfl, -⟩⟩ := hsends.single hp <;> rfl

/-- SEND_FF executes TX.FF with the message's length and its first six bytes (R88). -/
theorem runsWith.step_first {m : List Byte} {s : State} (h : runsWith .sendFF m s) (h8 : 8 ≤ m.length) :
    step s = exec (.txFF (BitVec.ofNat 12 m.length) (m.take 6)) s := by
  obtain ⟨⟨hc, hr, hp⟩, hlen, hbytes⟩ := h
  have hT : (BitVec.ofNat 12 m.length).toNat = m.length := by
    rw [BitVec.toNat_ofNat, hlen, Nat.mod_eq_of_lt s.rspLen.isLt]
  have hwf : (Instr.txFF (BitVec.ofNat 12 m.length) (m.take 6)).wf = true := by
    rw [Instr.wf, hT, List.length_take, Nat.min_eq_left (by omega)]
    simpa using h8
  have hd := decode_encode_transmit rfl hwf
  rw [encode, pciByte_first, lengthLow_eq, hT] at hd
  exact (sendPhasesRunOutboundInstruction s _ m hc hr hlen hbytes).2.1 hp (by omega) hd

/-- SEND_CF executes TX.CF with the message's next bytes (R89). -/
theorem runsWith.step_consecutive {m : List Byte} {s : State} (h : runsWith .sendCF m s)
    (hoff : s.txOff.toNat < m.length) (hseq : s.txSeq ≠ 0#4) :
    step s = exec (.txCF s.txSeq ((m.drop s.txOff.toNat).take 7)) s := by
  obtain ⟨⟨hc, hr, hp⟩, hlen, hbytes⟩ := h
  have hwf : (Instr.txCF s.txSeq ((m.drop s.txOff.toNat).take 7)).wf = true := by
    refine Bool.and_eq_true_iff.mpr ⟨decide_eq_true hseq, ?_⟩
    rw [tailFits, List.length_take, List.length_drop, Bool.and_eq_true_iff, decide_eq_true_eq, decide_eq_true_eq]
    omega
  have hd := decode_encode_transmit rfl hwf
  rw [encode, pciByte_consecutive] at hd
  exact (sendPhasesRunOutboundInstruction s _ m hc hr hlen hbytes).2.2 hp hoff.le hd

/-! ## Where a transmission ends -/

/-- The end of a transmission of `frames` from `s`, as the TX port answers: the frames presented are logged with their
answers, the transaction ends, and OUT is TX_ABORTED where one of them failed (R93, R94, R111). -/
def afterDelivery (frames : List (List Byte)) (s : State) : State :=
  let sent := delivered s.cfgRespId frames s.txPort
  endTransaction { s with
    out := if sent.all (fun x => x.status = .ok) then s.out else .txAborted
    txPort := s.txPort.drop sent.length, txLog := s.txLog ++ sent }

/-- Some number of steps from `s` transmits `frames` and ends the transaction. Beside what `afterDelivery` says only the
segmenter's own registers change, and RSP_*, which TX.NR writes again (log 15). -/
def Delivers (frames : List (List Byte)) (s : State) : Prop :=
  ∃ n len buf off seq,
    runFor n s = some { afterDelivery frames s with rspLen := len, rspBuf := buf, txOff := off, txSeq := seq }

/-- The choice of a SEND_* phase presents no frame (R85). -/
theorem Delivers.of_setPhase {frames : List (List Byte)} {s : State} {p : Phase} (hstep : step s = .next (s.setPhase p))
    (h : Delivers frames (s.setPhase p)) : Delivers frames s := by
  obtain ⟨n, len, buf, off, seq, hrun⟩ := h
  exact ⟨n + 1, len, buf, off, seq, (runFor_succ hstep n).trans hrun⟩

/-- The transport does not take a frame: the transmission ends there (R94). -/
theorem Delivers.of_fail {i : Instr} {s : State} {later : List TxStatus} (hst : i.stage = .transmit)
    (hstep : step s = exec i s) (hport : s.txPort = .fail :: later) (more : List (List Byte)) :
    Delivers (encode i :: more) s := by
  obtain ⟨phase, len, buf, hbase⟩ := emitBase_frame i s
  rw [exec_transmit_fail hst hport, hbase] at hstep
  refine ⟨1, len, buf, s.txOff, s.txSeq, (runFor_succ hstep 0).trans ?_⟩
  simp [runFor, afterDelivery, delivered, hport, abortSend, endTransaction, State.sent, State.setOut]

/-- The transport takes the last frame: the transaction ends (R93). -/
theorem Delivers.of_last {bytes : List Byte} {s : State} {later : List TxStatus} (hport : s.txPort = .ok :: later)
    {phase : BitVec 4} {len : BitVec 12} {buf : Memory} {off : BitVec 12} {seq : Nibble}
    (hstep : step s = .next (endTransaction (State.sent bytes .ok later
      { s with phase := phase, rspLen := len, rspBuf := buf, txOff := off, txSeq := seq }))) :
    Delivers [bytes] s := by
  refine ⟨1, len, buf, off, seq, (runFor_succ hstep 0).trans ?_⟩
  simp [runFor, afterDelivery, delivered, hport, endTransaction, State.sent]

/-- The transport takes a frame, and the others follow from SEND_CF (R93). -/
theorem Delivers.of_ok {bytes : List Byte} {more : List (List Byte)} {s : State} {later : List TxStatus}
    (hport : s.txPort = .ok :: later) {off : BitVec 12} {seq : Nibble}
    (hstep : step s = .next (((s.sent bytes .ok later).setTx off seq).setPhase .sendCF))
    (hmore : Delivers more (((s.sent bytes .ok later).setTx off seq).setPhase .sendCF)) : Delivers (bytes :: more) s := by
  obtain ⟨n, len, buf, off', seq', hrun⟩ := hmore
  refine ⟨n + 1, len, buf, off', seq', (runFor_succ hstep n).trans (hrun.trans ?_)⟩
  simp [afterDelivery, delivered, hport, endTransaction, State.sent, State.setTx, State.setPhase]

/-! ## The frames of EncodeMessage -/

/-- R86's loop goes on below the message's length: the frame of TX.CF, and the frames that follow. -/
theorem consecutiveFrames_of_lt {m : List Byte} {off : Nat} (h : off < m.length) (fuel k : Nat) :
    consecutiveFrames m (fuel + 1) off k
      = encode (.txCF (BitVec.ofNat 4 (k % 15 + 1)) ((m.drop off).take 7)) :: consecutiveFrames m fuel (off + 7) (k + 1) :=
  if_pos h

/-- R86's loop ends at the message's length. -/
theorem consecutiveFrames_of_le {m : List Byte} {off : Nat} (h : m.length ≤ off) (fuel k : Nat) :
    consecutiveFrames m fuel off k = [] := by
  cases fuel with
  | zero => rfl
  | succ fuel => exact if_neg (Nat.not_lt.mpr h)

/-- A message over seven bytes is a first frame and R86's loop from index 6 on. -/
theorem encodeMessage_of_lt {m : List Byte} (h : 7 < m.length) :
    encodeMessage m
      = encode (.txFF (BitVec.ofNat 12 m.length) (m.take 6)) :: consecutiveFrames m m.length 6 0 :=
  if_neg (Nat.not_le.mpr h)

/-- Frame `j` of R86's loop: its number and its slice (R90, R91). -/
theorem consecutiveFrames_getElem? {m : List Byte} {fuel off k j : Nat} (hj : j < fuel) (h : off + 7 * j < m.length) :
    (consecutiveFrames m fuel off k)[j]?
      = some (encode (.txCF (BitVec.ofNat 4 ((k + j) % 15 + 1)) ((m.drop (off + 7 * j)).take 7))) := by
  induction j generalizing fuel off k with
  | zero =>
    obtain ⟨fuel, rfl⟩ := Nat.exists_eq_succ_of_ne_zero (Nat.ne_of_gt hj)
    rw [consecutiveFrames_of_lt (by omega), List.getElem?_cons_zero]
    rfl
  | succ j ih =>
    obtain ⟨fuel, rfl⟩ := Nat.exists_eq_succ_of_ne_zero (Nat.ne_zero_of_lt hj)
    rw [consecutiveFrames_of_lt (by omega), List.getElem?_cons_succ, ih (by omega) (by omega),
      show k + 1 + j = k + (j + 1) by omega, show off + 7 + 7 * j = off + 7 * (j + 1) by omega]

/-- The sequence numbers 1 to 15 fit their nibble (R90). -/
theorem sequence_toNat (k : Nat) : (BitVec.ofNat 4 (k % 15 + 1)).toNat = k % 15 + 1 := by
  rw [BitVec.toNat_ofNat]; omega

/-- Settles O52: frame k of R86's loop, which begins at number 0 and index 6. -/
theorem consecutiveFramesCarryTheMessage : Obligations.ConsecutiveFramesCarryTheMessage := by
  intro m k h8 _ hk
  rw [encodeMessage_of_lt h8, List.getElem?_cons_succ, consecutiveFrames_getElem? (by omega) hk, encode, pciByte_consecutive,
    sequence_toNat, Nat.zero_add]

/-! ## The whole run -/

/-- TX_SEQ steps through R90's sequence numbers. -/
theorem nextSeq_sequence (k : Nat) : nextSeq (BitVec.ofNat 4 (k % 15 + 1)) = BitVec.ofNat 4 ((k + 1) % 15 + 1) := by
  apply BitVec.eq_of_toNat_eq
  rw [nextSeq_toNat, sequence_toNat, sequence_toNat]
  split <;> omega

/-- No consecutive frame carries the number 0 (R47, R90). -/
theorem sequence_ne_zero (k : Nat) : BitVec.ofNat 4 (k % 15 + 1) ≠ 0#4 := fun h0 =>
  Nat.succ_ne_zero _ ((sequence_toNat k).symm.trans (congrArg BitVec.toNat h0))

/-- An accepted frame leaves the message and what lets the machine run as they were (R93). -/
theorem runsWith.sent_setTx {p : Phase} {m : List Byte} {s : State} (h : runsWith p m s) (bytes : List Byte)
    (later : List TxStatus) (off : BitVec 12) (seq : Nibble) :
    runsWith .sendCF m (((s.sent bytes .ok later).setTx off seq).setPhase .sendCF) := by
  obtain ⟨⟨hc, hr, -⟩, hlen, hbytes⟩ := h
  exact ⟨⟨hc, hr, rfl⟩, hlen, hbytes⟩

/-- From SEND_CF at frame k the phases transmit the frames of R86's loop from there on (R89, R90, R93, R94). -/
theorem runsWith.delivers_consecutive {m : List Byte} {fuel off k : Nat} {s : State} (h : runsWith .sendCF m s)
    (hoff : s.txOff.toNat = off) (hlt : off < m.length) (hseq : s.txSeq = BitVec.ofNat 4 (k % 15 + 1))
    (hfuel : m.length ≤ off + fuel) (hport : (consecutiveFrames m fuel off k).length ≤ s.txPort.length) :
    Delivers (consecutiveFrames m fuel off k) s := by
  induction fuel generalizing off k s with
  | zero => omega
  | succ fuel ih =>
    have hT := h.length ▸ s.rspLen.isLt
    have hlen : ((m.drop off).take 7).length = min 7 (m.length - off) := by rw [List.length_take, List.length_drop]
    have hadv := advance_toNat (off := s.txOff) (n := ((m.drop off).take 7).length) (by omega)
    have hstep := h.step_consecutive (hoff ▸ hlt) (hseq ▸ sequence_ne_zero k)
    rw [consecutiveFrames_of_lt hlt, ← hseq] at hport ⊢
    rw [hoff] at hstep hadv
    match htx : s.txPort with
    | [] => rw [htx] at hport; cases hport
    | .fail :: later => exact Delivers.of_fail rfl hstep htx _
    | .ok :: later =>
      obtain ⟨hmore, he⟩ | ⟨hend, he⟩ := exec_txCF_ok_cases htx s.txSeq (data := (m.drop off).take 7) rfl
      · rw [hadv, ← h.length] at hmore
        rw [htx] at hport
        have hnext := hseq ▸ nextSeq_sequence k
        refine Delivers.of_ok htx (hstep.trans he)
          (ih (h.sent_setTx _ later _ _) (hadv.trans ?_) ?_ hnext ?_ (Nat.le_of_succ_le_succ hport)) <;> omega
      · rw [hadv, ← h.length] at hend
        rw [consecutiveFrames_of_le (by omega)]
        exact Delivers.of_last htx (hstep.trans he)

/-- From SEND_FF the phases transmit the frames of EncodeMessage (R88, R93, R94). -/
theorem runsWith.delivers_multi {m : List Byte} {s : State} (h : runsWith .sendFF m s) (h8 : 8 ≤ m.length)
    (hport : (encodeMessage m).length ≤ s.txPort.length) : Delivers (encodeMessage m) s := by
  have hstep := h.step_first h8
  rw [encodeMessage_of_lt h8] at hport ⊢
  match htx : s.txPort with
  | [] => rw [htx] at hport; cases hport
  | .fail :: later => exact Delivers.of_fail rfl hstep htx _
  | .ok :: later =>
    rw [htx] at hport
    exact Delivers.of_ok htx (hstep.trans (exec_txFF_ok htx _ _))
      ((h.sent_setTx _ later _ _).delivers_consecutive (k := 0) rfl (Nat.lt_of_lt_of_le (by decide : 6 < 8) h8) rfl
        (Nat.le_add_left _ _) (Nat.le_of_succ_le_succ hport))

/-- From SEND_SF the phase transmits the one frame of EncodeMessage (R87, R93, R94). -/
theorem runsWith.delivers_single {m : List Byte} {s : State} (h : runsWith .sendSF m s) (h1 : 1 ≤ m.length)
    (h7 : m.length ≤ 7) (hport : (encodeMessage m).length ≤ s.txPort.length) : Delivers (encodeMessage m) s := by
  obtain ⟨i, hst, hframe, hstep, hdone⟩ := h.step_single h1 h7
  rw [encodeMessage, if_pos h7, ← hframe] at hport ⊢
  match htx : s.txPort with
  | [] => rw [htx] at hport; cases hport
  | .fail :: later => exact Delivers.of_fail hst hstep htx _
  | .ok :: later =>
    obtain ⟨phase, len, buf, hbase⟩ := emitBase_frame i s
    rw [exec_transmit_ok hst htx, hdone, hbase] at hstep
    exact Delivers.of_last htx hstep

/-- From ENCODE the segmenter's phases transmit the frames of EncodeMessage, up to and with the first that fails, and end the
transaction (R85, R86, R93, R94). -/
theorem runsWith.delivers {m : List Byte} {s : State} (h : runsWith .encode m s) (h1 : 1 ≤ m.length)
    (hport : (encodeMessage m).length ≤ s.txPort.length) : Delivers (encodeMessage m) s := by
  obtain ⟨⟨hc, hr, hp⟩, hlen, hbytes⟩ := h
  have hstep : step s = chooseSegmentation s := step_eq_runPhase hc hr hp
  obtain ⟨h0, -⟩ | ⟨-, h7, he⟩ | ⟨h8, he⟩ := chooseSegmentation_cases s
  · rw [hlen, h0] at h1; cases h1
  · have hsend : runsWith .sendSF m (s.setPhase .sendSF) := ⟨⟨hc, hr, rfl⟩, hlen, hbytes⟩
    exact Delivers.of_setPhase (hstep.trans he) (hsend.delivers_single h1 (hlen.trans_le h7) hport)
  · have hsend : runsWith .sendFF m (s.setPhase .sendFF) := ⟨⟨hc, hr, rfl⟩, hlen, hbytes⟩
    exact Delivers.of_setPhase (hstep.trans he) (hsend.delivers_multi (hlen ▸ h8) hport)

/-- A transport that takes every frame is given all of them (R93). -/
theorem delivered_all_ok (id : CanId) (frames : List (List Byte)) (later : List TxStatus) :
    delivered id frames (List.replicate frames.length .ok ++ later)
      = frames.map fun bytes => { frame := { id := id, data := bytes }, status := .ok } := by
  induction frames with
  | nil => rfl
  | cons bytes more ih => exact congrArg (_ :: ·) ih

/-- Then the transmission ends with the whole response sent and the outcome that was in OUT (R93, R111). -/
theorem afterDelivery_all_ok {frames : List (List Byte)} {s : State} {later : List TxStatus}
    (hport : s.txPort = List.replicate frames.length .ok ++ later) :
    afterDelivery frames s = endTransaction { s with
      txPort := later
      txLog := s.txLog ++ frames.map fun bytes => { frame := { id := s.cfgRespId, data := bytes }, status := .ok } } := by
  simp [afterDelivery, hport, delivered_all_ok]

/-- Settles O53: the segmenter's run, where the transport takes every frame. -/
theorem segmenterEmitsEncodeMessage : Obligations.SegmenterEmitsEncodeMessage := by
  intro s m later hs h1 hlen hbytes hport
  obtain ⟨n, len, buf, off, seq, hrun⟩ := runsWith.delivers ⟨hs, hlen, hbytes⟩ h1 (by simp [hport])
  rw [afterDelivery_all_ok hport] at hrun
  exact ⟨n, _, hrun, rfl, rfl, rfl, rfl, rfl⟩

end Sys2Proof.Machine
end

section
/-! SUPPORT. The family of 43_reference_reassembler.md: Reassemble against EncodeMessage (R95, R96), the number of frames (R97),
the oversized reply (R98) and the block's own first frame (R99). What Reassemble accepts is said once as an equivalence, for its
loop and for the whole; the round trip is one direction of it. -/

namespace Sys2Proof.Machine

/-! ## The reassembler's loop -/

/-- After the last frame the message is complete or the error is INCOMPLETE (R95). -/
theorem reassembleRest_nil_eq_ok {t k : Nat} {p m : List Byte} :
    reassembleRest t k p [] = .ok m ↔ p.length = t ∧ p = m := by
  rw [reassembleRest]
  split_ifs with h <;> simp [h]

/-- A frame after a complete message is a trailing frame (R95). -/
theorem reassembleRest_cons_complete (k : Nat) (p f : List Byte) (more : List (List Byte)) :
    reassembleRest p.length k p (f :: more) = .error .trailingFrames := if_pos rfl

/-- The loop goes on with exactly the consecutive frame that is due: its number, and its length (R95). -/
theorem reassembleRest_cons_eq_ok {t k : Nat} {p f m : List Byte} {more : List (List Byte)} (h : p.length < t) :
    reassembleRest t k p (f :: more) = .ok m
      ↔ ∃ data, f = encode (.txCF (BitVec.ofNat 4 (k % 15 + 1)) data) ∧ data.length = min 7 (t - p.length)
        ∧ reassembleRest t (k + 1) (p ++ data) more = .ok m := by
  cases f with
  | nil => simp [reassembleRest, encode, Nat.ne_of_lt h]
  | cons b0 data =>
    simp only [reassembleRest, if_neg (Nat.ne_of_lt h), encode, List.cons.injEq]
    split_ifs with hseq hlen
    · simp [hseq]
    · simp only [false_iff]
      rintro ⟨_, ⟨-, rfl⟩, hdue, -⟩
      exact hlen hdue
    · exact ⟨fun he => ⟨data, ⟨not_not.mp hseq, rfl⟩, not_not.mp hlen, he⟩,
        fun ⟨_, ⟨_, hdata⟩, _, he⟩ => hdata ▸ he⟩

/-- The slice of R86's loop after what is put together is its one continuation of the due length (R8, R91). -/
theorem append_prefix_iff_eq_slice {p data m : List Byte} (h : p <+: m) :
    (data.length = min 7 (m.length - p.length) ∧ p ++ data <+: m) ↔ data = (m.drop p.length).take 7 := by
  obtain ⟨q, rfl⟩ := h
  rw [List.prefix_append_right_inj, List.drop_left, List.length_append, Nat.add_sub_cancel_left, List.prefix_iff_eq_take]
  constructor
  · rintro ⟨hlen, hq⟩
    rw [hq, hlen, List.take_eq_take_iff]
    omega
  · rintro rfl
    simp

/-- R86's loop goes on alike after the clamped slice (R8). -/
theorem consecutiveFrames_clamped {m : List Byte} {off : Nat} (h : off ≤ m.length) (fuel k : Nat) :
    consecutiveFrames m fuel (off + min 7 (m.length - off)) k = consecutiveFrames m fuel (off + 7) k := by
  obtain h7 | h7 := Nat.le_total 7 (m.length - off)
  · rw [Nat.min_eq_left h7]
  · rw [Nat.min_eq_right h7, consecutiveFrames_of_le (by omega), consecutiveFrames_of_le (by omega)]

/-- With `p` put together, the loop accepts exactly R86's consecutive frames of a message of the total length that begins
with `p`, and gives that message (R95). -/
theorem reassembleRest_eq_ok_iff {t k fuel : Nat} {p m : List Byte} {frames : List (List Byte)} (hp : p.length ≤ t)
    (hfuel : t ≤ p.length + fuel) :
    reassembleRest t k p frames = .ok m
      ↔ m.length = t ∧ p <+: m ∧ frames = consecutiveFrames m fuel p.length k := by
  induction frames generalizing k p fuel with
  | nil =>
    rw [reassembleRest_nil_eq_ok]
    constructor
    · rintro ⟨hlen, rfl⟩
      exact ⟨hlen, List.prefix_rfl, (consecutiveFrames_of_le le_rfl fuel k).symm⟩
    · rintro ⟨rfl, hpre, hframes⟩
      obtain hlt | hlen := hp.lt_or_eq
      · obtain ⟨fuel, rfl⟩ := Nat.exists_eq_succ_of_ne_zero (n := fuel) (by omega)
        rw [consecutiveFrames_of_lt hlt] at hframes
        cases hframes
      · exact ⟨hlen, hpre.eq_of_length hlen⟩
  | cons f more ih =>
    obtain hlt | rfl := hp.lt_or_eq
    · obtain ⟨fuel, rfl⟩ := Nat.exists_eq_succ_of_ne_zero (n := fuel) (by omega)
      rw [reassembleRest_cons_eq_ok hlt]
      constructor
      · rintro ⟨data, rfl, hdata, hrest⟩
        have hlen : (p ++ data).length = p.length + min 7 (t - p.length) := by rw [List.length_append, hdata]
        obtain ⟨rfl, hpre, rfl⟩ := (ih (fuel := fuel) (by omega) (by omega)).mp hrest
        have hp := (List.prefix_append p data).trans hpre
        rw [consecutiveFrames_of_lt hlt, hlen, consecutiveFrames_clamped hlt.le,
          ← (append_prefix_iff_eq_slice hp).mp ⟨hdata, hpre⟩]
        exact ⟨rfl, hp, rfl⟩
      · rintro ⟨rfl, hpre, hframes⟩
        rw [consecutiveFrames_of_lt hlt] at hframes
        cases hframes
        obtain ⟨hdata, hnext⟩ := (append_prefix_iff_eq_slice hpre).mpr rfl
        generalize (m.drop p.length).take 7 = data at hdata hnext ⊢
        have hlen : (p ++ data).length = p.length + min 7 (m.length - p.length) := by rw [List.length_append, hdata]
        refine ⟨data, rfl, hdata, (ih (fuel := fuel) (by omega) (by omega)).mpr ⟨rfl, hnext, ?_⟩⟩
        rw [hlen, consecutiveFrames_clamped hlt.le]
    · rw [reassembleRest_cons_complete]
      refine iff_of_false nofun ?_
      rintro ⟨hlen, -, hframes⟩
      rw [consecutiveFrames_of_le hlen.le] at hframes
      cases hframes

/-! ## What Reassemble accepts -/

/-- A single frame is accepted alone, with exactly its L bytes, 1 to 7 of them (R95, D19). -/
theorem reassemble_single_eq_ok {l : Nibble} {data m : List Byte} {more : List (List Byte)} :
    reassemble ((pciByte 0x0#4 l :: data) :: more) = .ok m
      ↔ more = [] ∧ 1 ≤ l.toNat ∧ l.toNat ≤ 7 ∧ data.length = l.toNat ∧ data = m := by
  have hzero : l = 0#4 ↔ l.toNat = 0 := BitVec.toNat_inj.symm
  simp only [reassemble, pciType_pciByte, pciNibble_pciByte, hzero, if_true]
  split_ifs with hmore h0 hshort hloose <;> simp only [false_iff, Except.ok.injEq]
  · exact fun ⟨hnil, _⟩ => hmore hnil
  · omega
  · omega
  · omega
  · exact ⟨fun he => ⟨not_not.mp hmore, by omega, by omega, by omega, he⟩, fun ⟨_, _, _, _, he⟩ => he⟩

/-- A first frame is accepted with a T of 8 or more and six bytes, if the loop accepts the others (R95). -/
theorem reassemble_first_eq_ok {tlen : BitVec 12} {p m : List Byte} {more : List (List Byte)} :
    reassemble (encode (.txFF tlen p) :: more) = .ok m
      ↔ p.length = 6 ∧ 8 ≤ tlen.toNat ∧ reassembleRest tlen.toNat 0 p more = .ok m := by
  have htype : (0x1#4 : Nibble) ≠ 0x0#4 := by decide
  simp only [reassemble, encode, pciType_pciByte, ffLength_fields, if_neg htype, if_true]
  split_ifs with h6 h8
  · exact iff_of_false nofun fun ⟨hp, _⟩ => h6 hp
  · exact iff_of_false nofun fun ⟨_, hT, _⟩ => Nat.not_le.mpr h8 hT
  · exact ⟨fun h => ⟨not_not.mp h6, Nat.le_of_not_lt h8, h⟩, fun ⟨_, _, h⟩ => h⟩

/-- What is accepted begins with a single or a first frame (R95). -/
theorem exists_first_of_reassemble_eq_ok {frames : List (List Byte)} {m : List Byte} (h : reassemble frames = .ok m) :
    ∃ more, (∃ l data, frames = (pciByte 0x0#4 l :: data) :: more) ∨ ∃ tlen p, frames = encode (.txFF tlen p) :: more := by
  match frames with
  | [] | [] :: _ => cases h
  | (b0 :: data) :: more =>
    refine ⟨more, ?_⟩
    rw [← pciByte_fields b0] at h ⊢
    by_cases h0 : pciType b0 = 0x0#4
    · exact .inl ⟨pciNibble b0, data, by rw [h0]⟩
    by_cases h1 : pciType b0 = 0x1#4
    · cases data with
      | nil => simp [reassemble, h1] at h
      | cons b1 p => exact .inr ⟨ffLength b0 b1, p, by rw [encode, lengthHigh_ffLength, lengthLow_ffLength, h1]⟩
    · simp [reassemble, h0, h1] at h

/-- Settles O50: the frames of EncodeMessage are what a single frame, and what a first frame and the loop, must be. -/
theorem reassembleInvertsEncodeMessage : Obligations.ReassembleInvertsEncodeMessage := by
  intro m h1 hmax
  by_cases h7 : m.length ≤ 7
  · have hl : (BitVec.ofNat 4 m.length).toNat = m.length := by rw [BitVec.toNat_ofNat]; omega
    rw [encodeMessage, if_pos h7, ← pciByte_single h7, reassemble_single_eq_ok, hl]
    exact ⟨rfl, h1, h7, rfl, rfl⟩
  · have h8 := Nat.lt_of_not_le h7
    have hT : (BitVec.ofNat 12 m.length).toNat = m.length := by rw [BitVec.toNat_ofNat]; omega
    have h6 : (m.take 6).length = 6 := by rw [List.length_take]; omega
    have hrest : reassembleRest m.length 0 (m.take 6) (consecutiveFrames m m.length 6 0) = .ok m :=
      (reassembleRest_eq_ok_iff (fuel := m.length) (by omega) (by omega)).mpr ⟨rfl, List.take_prefix 6 m, by rw [h6]⟩
    rw [encodeMessage_of_lt h8, reassemble_first_eq_ok, hT]
    exact ⟨h6, h8, hrest⟩

/-- Settles O56: the first frame fixes which of EncodeMessage's forms is accepted, and the loop the frames after it. -/
theorem reassembleAcceptsExactlyEncodedMessages : Obligations.ReassembleAcceptsExactlyEncodedMessages := by
  refine fun frames m => ⟨fun h => ?_, fun ⟨h1, hmax, hframes⟩ => hframes ▸ reassembleInvertsEncodeMessage m h1 hmax⟩
  obtain ⟨more, ⟨l, data, rfl⟩ | ⟨tlen, p, rfl⟩⟩ := exists_first_of_reassemble_eq_ok h
  · obtain ⟨rfl, h1, h7, hlen, rfl⟩ := reassemble_single_eq_ok.mp h
    rw [← hlen] at h1 h7
    have hl : l = BitVec.ofNat 4 data.length := by rw [hlen, BitVec.ofNat_toNat, BitVec.setWidth_eq]
    exact ⟨h1, by omega, by rw [encodeMessage, if_pos h7, hl, pciByte_single h7]⟩
  · obtain ⟨h6, h8, hrest⟩ := reassemble_first_eq_ok.mp h
    have hT := tlen.isLt
    obtain ⟨hlen, hpre, rfl⟩ := (reassembleRest_eq_ok_iff (fuel := tlen.toNat) (by omega) (by omega)).mp hrest
    have htlen : tlen = BitVec.ofNat 12 m.length := by rw [hlen, BitVec.ofNat_toNat, BitVec.setWidth_eq]
    have hp : p = m.take 6 := h6 ▸ List.prefix_iff_eq_take.mp hpre
    refine ⟨by omega, by omega, ?_⟩
    rw [encodeMessage_of_lt (by omega), ← htlen, ← hp, h6, hlen]

/-! ## The number of frames -/

/-- R86's loop takes seven bytes of the message at a time (R97). -/
theorem consecutiveFrames_length {m : List Byte} {fuel off : Nat} (h : m.length ≤ off + fuel) (k : Nat) :
    (consecutiveFrames m fuel off k).length = (m.length - off + 6) / 7 := by
  induction fuel generalizing off k with
  | zero => rw [consecutiveFrames_of_le (off := off) h, List.length_nil]; omega
  | succ fuel ih =>
    obtain hlt | hle := Nat.lt_or_ge off m.length
    · rw [consecutiveFrames_of_lt hlt, List.length_cons, ih (by omega)]; omega
    · rw [consecutiveFrames_of_le hle, List.length_nil]; omega

/-- Settles O51: beside a first frame there is a consecutive frame for every seven bytes after the sixth. -/
theorem frameCountIsAsStated : Obligations.FrameCountIsAsStated := by
  intro m _ _
  by_cases h7 : m.length ≤ 7
  · rw [encodeMessage, if_pos h7]
    exact ⟨iff_of_true rfl h7, fun h8 => absurd h7 (Nat.not_le.mpr h8)⟩
  · rw [encodeMessage_of_lt (Nat.lt_of_not_le h7), List.length_cons, consecutiveFrames_length (by omega)]
    omega

/-! ## The block's own first frame -/

/-- The state in which DECODE reads the frame `f` taken from the RX port. -/
def received (f : Frame) (later : List Frame) (s : State) : State :=
  (State.latchFrame f { s with rxPort := later }).setPhase .decode

/-- A classic frame on CFG_REQ_ID passes acceptance and the filter (R56, R57). -/
theorem runFor_received {s : State} {f : Frame} {later : List Frame} (hs : runsIn .idle s) (hport : s.rxPort = f :: later)
    (hid : f.id = s.cfgReqId) (hf : f.data.length ≤ 8) (n : Nat) : runFor (n + 2) s = runFor n (received f later s) := by
  obtain ⟨hc, hr, hp⟩ := hs
  have hfilter : runsIn .filter ((State.latchFrame f { s with rxPort := later }).setPhase .filter) := ⟨hc, hr, rfl⟩
  rw [runFor_succ ((step_eq_runPhase hc hr hp).trans (acceptFrame_cons hport hf)),
    runFor_succ ((filterComparesTheIdentifier _ hfilter).2 hid)]
  rfl

/-- DECODE then executes the row its bytes decode to (R58). -/
theorem step_received {s : State} {f : Frame} {i : Instr} (hs : runsIn .idle s) (hd : decode .receive f.data = .ok i)
    (later : List Frame) : step (received f later s) = exec i (received f later s) := by
  obtain ⟨hc, hr, -⟩ := hs
  obtain ⟨b0, b1, rest, hdata, hrest⟩ := decode_eq_ok hd
  have hflen : f.data.length = rest.length + 2 := congrArg List.length hdata
  obtain ⟨hlen, hbytes⟩ : (received f later s).rxLen.toNat = f.data.length ∧ (received f later s).rxBytes = f.data :=
    latchFrame_rxBytes (by omega) { s with rxPort := later }
  exact decodePhaseRunsReceivedInstruction _ i ⟨hc, hr, rfl⟩ (by omega) (by omega) (hbytes ▸ hd)

/-- Settles O55: at the receive stage the first frame is RX.FF's, and that row drops it. -/
theorem ownFirstFrameIsDropped : Obligations.OwnFirstFrameIsDropped := by
  intro s m bytes later hs h8 _ hhead hport
  rw [encodeMessage_of_lt h8, List.head?_cons] at hhead
  cases hhead
  have hfits : (m.take 6).length ≤ 6 := List.length_take_le 6 m
  have hd : decode .receive (encode (.txFF (BitVec.ofNat 12 m.length) (m.take 6)))
      = .ok (.rxFF (BitVec.ofNat 12 m.length) (m.take 6)) := decodeInvertsEncode (.rxFF _ _) ((restFits_iff _).mpr hfits)
  have hdrop := (step_received (f := ⟨s.cfgReqId, _⟩) hs hd later).trans ((multiFrameRowsDrop _).1 _ _)
  exact ⟨_, (runFor_received hs hport rfl (Nat.add_le_add_right hfits 2) 1).trans (runFor_succ hdrop 0), rfl, rfl, rfl, rfl⟩

/-! ## The oversized reply -/

/-- A positive reply that does not fit is the fault (R84, R98). -/
theorem acceptReply_oversized {data : List Byte} (h : 4094 < data.length) (s : State) :
    acceptReply (.positive data) s = raisePayloadTooLarge s := by
  obtain ⟨_, -, -, he⟩ | ⟨_, hd, hle, -⟩ | ⟨_, hd, -⟩ := acceptReply_cases (.positive data) s
  · exact he
  · cases hd
    exact absurd h (Nat.not_lt.mpr hle)
  · cases hd

/-- Settles O24: HANDLER takes the reply, and one that does not fit ends the transaction in the fault. -/
theorem oversizedReplyRaisesTheFault : Obligations.OversizedReplyRaisesTheFault := by
  intro s data h later hs hport hlong
  rw [step_handler hs hport, acceptReply_oversized hlong, raisePayloadTooLarge_eq]

end Sys2Proof.Machine
end

section
/-! SUPPORT. The family of 44_handler_port.md: the fault bit under R101's bound, the contract's negative replies against R108's
table, and the response of handlers that keep the contract (R100). A bounded reply becomes one message (`replyMessage`), and
the registers of the response depend on that message alone. -/

namespace Sys2Proof.Machine

/-! ## STATUS.FAULT under R101's bound -/

@[simp] theorem emitBase_faultBit (i : Instr) (s : State) : (emitBase i s).faultBit = s.faultBit := by cases i <;> rfl

@[simp] theorem emitDone_faultBit (i : Instr) (s : State) : (emitDone i s).faultBit = s.faultBit := by
  obtain ⟨_, _, _, _, he⟩ := emitDone_frame i s
  rw [he]

/-- Everything a step can do to STATUS.FAULT: reset clears it, a positive reply over R101's bound sets it (R113, R124). -/
theorem StepEffect.faultBit_cases {s t : State} (he : StepEffect s t) :
    (s.resetLine = true ∧ t.faultBit = false) ∨ t.faultBit = s.faultBit
    ∨ (t.faultBit = true ∧ s.phase = 0x4#4
        ∧ ∃ data after later, s.hpPort = { reply := .positive data, after := after } :: later ∧ 4094 < data.length) := by
  cases he with
  | reset hreset => exact .inl ⟨hreset, rfl⟩
  | oversized hp data after later hport hlong => exact .inr (.inr ⟨rfl, hp, data, after, later, hport, hlong⟩)
  | noStatus | emitted | failed => exact .inr (.inl (by simp))
  | _ => exact .inr (.inl rfl)

/-- A step takes at most the head of the answers to come (R73, R100). -/
theorem StepEffect.hpPort_suffix {s t : State} (he : StepEffect s t) : t.hpPort <:+ s.hpPort := by
  cases he with
  | positive _ _ _ _ hport | oversized _ _ _ _ hport | negative _ _ _ _ hport => rw [hport]; exact List.suffix_cons _ _
  | noStatus | emitted | failed => simp
  | _ => exact List.suffix_refl s.hpPort

/-- Settles O46: what would set the fault bit is an answer over the bound, and the answers to come only grow fewer. -/
theorem boundedAnswersKeepFaultClear : Obligations.BoundedAnswersKeepFaultClear := by
  intro s t hsafe hbounded hstep
  have heffect := step_effect hstep
  refine ⟨?_, fun a ha => hbounded a (heffect.hpPort_suffix.subset ha)⟩
  obtain ⟨-, hclear⟩ | hkept | ⟨-, -, data, after, later, hport, hlong⟩ := heffect.faultBit_cases
  · exact hclear
  · exact hkept.trans hsafe
  · have hhead := hbounded ⟨.positive data, after⟩ (by rw [hport]; exact List.mem_cons_self)
    rw [replyBounded, decide_eq_true_eq] at hhead
    exact absurd hlong (Nat.not_lt.mpr hhead)

/-! ## The negative replies of the contract -/

/-- TYPE, as a number (R44). -/
theorem pciType_toNat (b : Byte) : (pciType b).toNat = b.toNat / 16 := by
  rw [pciType, BitVec.extractLsb'_toNat, Nat.shiftRight_eq_div_pow]
  omega

/-- NIB, as a number (R44). -/
theorem pciNibble_toNat (b : Byte) : (pciNibble b).toNat = b.toNat % 16 := by
  rw [pciNibble, BitVec.extractLsb'_toNat, Nat.shiftRight_zero]

section
variable {h h' : HandlerState} {params : List Byte} {code : Byte}

/-- A rejection the source does not describe has a tabled NRC (R108). -/
theorem rejected_negative {sid : Byte} (hr : rejected sid h (.negative code) h') : code ∈ handlerNrcs sid := by
  obtain ⟨⟨c, hc, hcode⟩, -⟩ := hr
  cases hcode
  exact hc

/-- Handler 0x10 rejects with 0x31 (R102). -/
theorem allowsDsc_negative (ha : allowsDsc h params (.negative code) h') (hmin : 1 ≤ params.length) :
    code ∈ handlerNrcs 0x10#8 := by
  obtain _ | ⟨t, extra⟩ := params
  · cases hmin
  · obtain ⟨-, hr, -⟩ | ⟨-, hr, -⟩ | ⟨-, hr⟩ := ha
    · cases hr
    · cases hr; decide
    · exact rejected_negative hr

/-- Handler 0x11 rejects with 0x33 or 0x31 (R103). -/
theorem allowsEr_negative (ha : allowsEr h params (.negative code) h') (hmin : 1 ≤ params.length) :
    code ∈ handlerNrcs 0x11#8 := by
  obtain _ | ⟨t, extra⟩ := params
  · cases hmin
  · obtain ⟨-, -, hr⟩ | ⟨-, -, hr, -⟩ | ⟨-, hr, -⟩ | ⟨-, hr⟩ := ha
    · cases hr
    · cases hr; decide
    · cases hr; decide
    · exact rejected_negative hr

/-- Handler 0x14 rejects with 0x33 or 0x13 (R104). -/
theorem allowsCdtci_negative (ha : allowsCdtci h params (.negative code) h') : code ∈ handlerNrcs 0x14#8 := by
  obtain ⟨-, ⟨-, hr⟩ | ⟨-, hr⟩ | ⟨-, -, hr⟩⟩ := ha <;> cases hr <;> decide

/-- Handler 0x22 rejects with 0x33 or 0x31 (R105). -/
theorem allowsRdbi_negative (ha : allowsRdbi h params (.negative code) h') (hmin : 2 ≤ params.length) :
    code ∈ handlerNrcs 0x22#8 := by
  obtain _ | ⟨hi, _ | ⟨lo, extra⟩⟩ := params
  · cases hmin
  · exact absurd hmin (by decide : ¬ 2 ≤ 1)
  · obtain ⟨-, ⟨-, hr⟩ | ⟨-, hr⟩ | ⟨-, -, -, hr⟩ | ⟨-, hr⟩⟩ := ha
    · cases hr; decide
    · cases hr; decide
    · cases hr
    · exact rejected_negative hr

/-- Handler 0x23 rejects with 0x33, 0x13, 0x31 or 0x14, and a zero ALFID nibble with any code (R106). -/
theorem allowsRmba_negative (ha : allowsRmba h params (.negative code) h') (hmin : 1 ≤ params.length) :
    code ∈ handlerNrcs 0x23#8
    ∨ ∃ alfid rest, params = alfid :: rest ∧ (alfid.toNat / 16 = 0 ∨ alfid.toNat % 16 = 0) := by
  obtain _ | ⟨alfid, rest⟩ := params
  · cases hmin
  · obtain ⟨-, ⟨-, hr⟩ | ⟨hzero, -⟩ | ⟨-, hr⟩ | ⟨-, -, hr⟩ | ⟨-, -, hr⟩ | ⟨-, -, -, -, -, hr⟩
      | ⟨-, -, -, -, -, ⟨-, data, -, hr⟩ | hr⟩⟩ := ha
    · cases hr; exact .inl (by decide)
    · rw [pciType_toNat, pciNibble_toNat] at hzero
      exact .inr ⟨alfid, rest, rfl, hzero⟩
    · cases hr; exact .inl (by decide)
    · cases hr; exact .inl (by decide)
    · cases hr; exact .inl (by decide)
    · cases hr
    · cases hr
    · exact .inl (rejected_negative hr)

/-- A sendKey is rejected with 0x24, 0x13 or 0x35 (R107 step 4). -/
theorem keySent_negative {key : List Byte} (hk : keySent h key (.negative code) h') : code ∈ handlerNrcs 0x27#8 := by
  unfold keySent at hk
  split_ifs at hk
  · cases hk.1; decide
  · cases hk.1; decide
  · obtain ⟨⟨b, hr⟩, -⟩ := hk; cases hr
  · cases hk.1; decide

/-- Handler 0x27 rejects the session with 0x7F, the sub-function with 0x12, and a key as sendKey does (R107). -/
theorem allowsSa_negative {d : Draw} (ha : allowsSa h params d (.negative code) h') (hmin : 1 ≤ params.length) :
    code ∈ handlerNrcs 0x27#8 := by
  obtain _ | ⟨sub, data⟩ := params
  · cases hmin
  · dsimp only [allowsSa] at ha
    split_ifs at ha
    · cases ha.1; decide
    · obtain ⟨-, bytes, hr, -⟩ | ⟨-, hr⟩ := ha
      · cases hr
      · exact rejected_negative hr
    · exact keySent_negative ha
    · cases ha.1; decide

end

/-- By default every served SID needs a parameter (R17). -/
theorem one_le_defaultMin : ∀ sid ∈ servedSids, 1 ≤ entryMin (minEntry Config.defaultMinParamLen sid) := by decide

/-- Settles O49, by the handler the SID selects; its default minimum shuts out the requests too short to be described. -/
theorem contractNrcsAreTheTabled : Obligations.ContractNrcsAreTheTabled := by
  rintro h h' ⟨sid, params⟩ d code ⟨-, -, ha⟩ hsid hmin
  have h1 : 1 ≤ params.length := (one_le_defaultMin sid hsid).trans hmin
  simp only [servedSids, List.mem_cons, List.not_mem_nil, or_false] at hsid
  obtain rfl | rfl | rfl | rfl | rfl | rfl := hsid
  · exact .inl (allowsDsc_negative ha h1)
  · exact .inl (allowsEr_negative ha h1)
  · exact .inl (allowsCdtci_negative ha)
  · have h2 : 2 ≤ params.length :=
      (by decide : 2 ≤ entryMin (minEntry Config.defaultMinParamLen 0x22#8)).trans hmin
    exact .inl (allowsRdbi_negative ha h2)
  · exact (allowsRmba_negative ha h1).imp_right fun hzero => ⟨rfl, hzero⟩
  · exact .inl (allowsSa_negative ha h1)

/-! ## The response to a bounded reply -/

/-- The message a reply becomes (R74, R75). -/
def replyMessage (sid : Byte) : Reply → List Byte
  | .positive data => positiveSid sid :: data
  | .negative code => [0x7F#8, sid, code]

/-- The outcome a reply records (R74, R75). -/
def replyOutcome : Reply → TxnOutcome
  | .positive _ => .respPositive
  | .negative _ => .respNegative

/-- The message of a bounded reply fits RSP_BUF (R84, R101). -/
theorem replyMessage_length_le {r : Reply} (h : replyBounded r = true) (sid : Byte) : (replyMessage sid r).length ≤ 4095 := by
  cases r with
  | positive data => exact Nat.succ_le_succ (decide_eq_true_eq.mp h)
  | negative code => exact (by decide : 3 ≤ 4095)

/-- A bounded reply is stored as its message, for ENCODE (R70, R74, R75). -/
theorem acceptReply_of_bounded {r : Reply} (h : replyBounded r = true) (s : State) :
    acceptReply r s = .next { s with
      rspLen := BitVec.ofNat 12 (replyMessage s.reqSid r).length
      rspBuf := s.rspBuf.writeBytes 0 (replyMessage s.reqSid r), out := replyOutcome r, phase := 0x5#4 } := by
  cases r with
  | positive data =>
    rw [acceptReply_positive (decide_eq_true_eq.mp h), Nat.add_comm]
    rfl
  | negative code => rfl

/-- Inside the stored bytes a read does not depend on what RSP_BUF held before. -/
theorem Memory.read_writeBytes_congr (m m' : Memory) {bytes : List Byte} {a : Nat} (ha : a < bytes.length) :
    (m.writeBytes 0 bytes).read a = (m'.writeBytes 0 bytes).read a := by
  have hin : 0 ≤ a ∧ a < 0 + bytes.length := by omega
  rw [Memory.read_writeBytes, Memory.read_writeBytes, if_pos hin, if_pos hin]

/-- Settles O57: with no seed drawn the two answers are one, and its reply's message is stored in both runs. -/
theorem repeatedRequestsGetTheSameResponse : Obligations.RepeatedRequestsGetTheSameResponse := by
  intro H s s' hkeeps hs hs' ⟨d, later, hport⟩ ⟨d', later', hport'⟩ hhandlers hreq hdrawn
  have hanswer : H s'.handlers s'.hpRequest d' = H s.handlers s.hpRequest d := by
    rw [← hhandlers, ← hreq]
    exact hkeeps.deterministic _ _ _ _ (hdrawn d' d)
  rw [hanswer] at hport'
  obtain ⟨hbounded, -, -⟩ := hkeeps.allowed s.handlers s.hpRequest d
  have hsid : s'.reqSid = s.reqSid := (congrArg Request.sid hreq).symm
  refine ⟨_, _, (step_handler hs hport).trans (acceptReply_of_bounded hbounded _),
    (step_handler hs' hport').trans (acceptReply_of_bounded hbounded _), rfl, rfl, rfl, ?_, fun a ha => ?_⟩
  · simp only [hsid]
  · have hlen := replyMessage_length_le hbounded s.reqSid
    simp only [hsid, BitVec.toNat_ofNat] at ha ⊢
    exact Memory.read_writeBytes_congr _ _ (by omega)

end Sys2Proof.Machine
end

section
/-! SUPPORT. The family of 60_exceptions.md: what a step does to FAULT and LAST_OUTCOME (R111, R113), the phases against the
transaction as one function (R114), and the block beside the environment of the handler port (R118). The refinement has
two parts: from the offered frame to a state where the transaction's result stands (`Decides`), by the case the transaction
comes to, and from there by the segmenter's run (`Delivers`). -/

namespace Sys2Proof.Machine

/-! ## STATUS.FAULT and LAST_OUTCOME -/

/-- Settles O33: without reset the fault bit stays as it was or is set by an oversized reply. -/
theorem faultBitIsStickyAndSetByOversizedReplies : Obligations.FaultBitIsStickyAndSetByOversizedReplies := by
  intro s t hr hstep
  obtain ⟨hreset, -⟩ | hkept | ⟨hset, hp, hport⟩ := (step_effect hstep).faultBit_cases
  · rw [hr] at hreset; cases hreset
  · exact ⟨hkept.trans, fun hclear hset => by rw [hkept, hclear] at hset; cases hset⟩
  · exact ⟨fun _ => hset, fun _ _ => ⟨hp, hport⟩⟩

@[simp] theorem emitBase_lastOutcome (i : Instr) (s : State) : (emitBase i s).lastOutcome = s.lastOutcome := by
  cases i <;> rfl

/-- An accepted frame ends the transaction with OUT recorded, or leaves LAST_OUTCOME and stays outside IDLE (R89, R111). -/
theorem emitDone_outcome_cases (i : Instr) (s : State) (hs : s.phase ≠ 0x0#4) :
    ((emitDone i s).phase = 0x0#4 ∧ (emitDone i s).lastOutcome = (emitDone i s).out.code)
    ∨ ((emitDone i s).phase ≠ 0x0#4 ∧ (emitDone i s).lastOutcome = s.lastOutcome) := by
  cases i with
  | txFF tlen data => exact .inr ⟨(by decide : 0x8#4 ≠ 0x0#4), rfl⟩
  | txCF n data =>
    rw [emitDone]
    obtain ⟨-, he⟩ | ⟨-, he⟩ := afterCF_cases data.length n s <;> rw [he]
    · exact .inr ⟨hs, rfl⟩
    · exact .inl ⟨rfl, rfl⟩
  | _ => exact .inl ⟨rfl, rfl⟩

/-- Everything a step without reset can do to LAST_OUTCOME (R111). -/
theorem StepEffect.lastOutcome_cases {s t : State} (he : StepEffect s t) (hr : s.resetLine = false) :
    (s.phase ≠ 0x0#4 ∧ t.phase = 0x0#4 ∧ t.lastOutcome = t.out.code)
    ∨ ((s.phase = 0x0#4 ∨ t.phase ≠ 0x0#4) ∧ t.lastOutcome = s.lastOutcome) := by
  have hsend (hp : s.phase = 0x6#4 ∨ s.phase = 0x7#4 ∨ s.phase = 0x8#4) : s.phase ≠ 0x0#4 := by
    obtain hp | hp | hp := hp <;> rw [hp] <;> decide
  cases he with
  | reset hreset => rw [hr] at hreset; cases hreset
  | noFrame hp | accepted hp => exact .inr ⟨.inl hp, rfl⟩
  | wrongId hp | dropped hp | oversized hp => exact .inl ⟨by simp [hp], rfl, rfl⟩
  | rightId | decoded | answeredNr | called | positive | negative | single | multi => exact .inr ⟨.inr (by simp), rfl⟩
  | noAnswer hp => exact .inr ⟨.inr (by simp [hp]), rfl⟩
  | noStatus hp i hi => exact .inr ⟨.inr ((hi.emitBase_phase hp).trans_ne (hsend hp)), by simp⟩
  | failed hp => exact .inl ⟨hsend hp, rfl, rfl⟩
  | emitted hp i hi later =>
    have hbase := (hi.emitBase_phase hp).trans_ne (hsend hp)
    obtain ⟨hidle, hout⟩ | ⟨hbusy, hout⟩ := emitDone_outcome_cases i ((emitBase i s).sent (encode i) .ok later) hbase
    · exact .inl ⟨hsend hp, hidle, hout⟩
    · exact .inr ⟨.inr hbusy, hout.trans (emitBase_lastOutcome i s)⟩

/-- Settles O35: a step either ends a transaction and records OUT, or does neither. -/
theorem lastOutcomeIsWrittenAtTheEnd : Obligations.LastOutcomeIsWrittenAtTheEnd := by
  intro s t hr hstep
  obtain ⟨hs, ht, hout⟩ | ⟨hinside, hkept⟩ := (step_effect hstep).lastOutcome_cases hr
  · exact ⟨fun _ _ => ⟨hout, by simp [State.rxReady, State.busy, ht]⟩, fun h => (h.elim hs (· ht)).elim⟩
  · exact ⟨fun hs ht => (hinside.elim hs (· ht)).elim, fun _ => hkept⟩

/-! ## The transaction, by cases -/

/-- What a transaction comes to, one case for each outcome in R114's order. -/
inductive TransactionCase (c : Configuration) (f : Frame) (reply : Reply) : TxnResult → Prop
  | wrongId (hid : f.id ≠ c.reqId) : TransactionCase c f reply { outcome := .dropWrongId, frames := [], calls := [] }
  | dropped (hid : f.id = c.reqId) (drop : TxnOutcome) (h : requestOf c.policy f.data = .error drop) :
      TransactionCase c f reply { outcome := drop, frames := [], calls := [] }
  | absent (hid : f.id = c.reqId) (req : Request) (h : requestOf c.policy f.data = .ok req)
      (habsent : entryPresent (minEntry c.minParamLen req.sid) = false) :
      TransactionCase c f reply
        { outcome := .respServiceNotSupported, frames := negativeResponse req.sid 0x11#8, calls := [] }
  | short (hid : f.id = c.reqId) (req : Request) (h : requestOf c.policy f.data = .ok req)
      (hpresent : entryPresent (minEntry c.minParamLen req.sid) = true)
      (hshort : req.params.length < entryMin (minEntry c.minParamLen req.sid)) :
      TransactionCase c f reply
        { outcome := .respIncorrectLength, frames := negativeResponse req.sid 0x13#8, calls := [] }
  | oversized (hid : f.id = c.reqId) (req : Request) (h : requestOf c.policy f.data = .ok req)
      (hpresent : entryPresent (minEntry c.minParamLen req.sid) = true)
      (hmin : entryMin (minEntry c.minParamLen req.sid) ≤ req.params.length)
      (data : List Byte) (hdata : reply = .positive data) (hlong : 4094 < data.length) :
      TransactionCase c f reply { outcome := .faultPayloadTooLarge, frames := [], calls := [req] }
  | replied (hid : f.id = c.reqId) (req : Request) (h : requestOf c.policy f.data = .ok req)
      (hpresent : entryPresent (minEntry c.minParamLen req.sid) = true)
      (hmin : entryMin (minEntry c.minParamLen req.sid) ≤ req.params.length) (hbounded : replyBounded reply = true) :
      TransactionCase c f reply
        { outcome := replyOutcome reply, frames := encodeMessage (replyMessage req.sid reply), calls := [req] }

/-- The transaction function has no other case (R114). -/
theorem transaction_case (c : Configuration) (f : Frame) (reply : Reply) :
    TransactionCase c f reply (transaction c f reply) := by
  unfold transaction
  split
  next hid => exact .wrongId hid
  next hid =>
    have hid := not_not.mp hid
    split
    next drop h => exact .dropped hid drop h
    next req h =>
      split_ifs with habsent hshort
      · exact .absent hid req h (by simpa using habsent)
      · exact .short hid req h (by simpa using habsent) hshort
      · have hpresent : entryPresent (minEntry c.minParamLen req.sid) = true := by simpa using habsent
        have hmin := Nat.le_of_not_lt hshort
        cases reply with
        | negative code => exact .replied hid req h hpresent hmin rfl
        | positive data =>
          dsimp only
          split_ifs with hlong
          · exact .oversized hid req h hpresent hmin data rfl (by unfold Config.maxMessage at hlong; omega)
          · exact .replied hid req h hpresent hmin (decide_eq_true (by unfold Config.maxMessage at hlong; omega))

/-! ## DECODE against the request function -/

/-- A frame of less than two bytes carries no request (R59). -/
theorem requestOf_tooShort (policy : BitVec 2) {data : List Byte} (h : data.length < 2) :
    requestOf policy data = .error .dropTooShort := by
  match data, h with
  | [], _ | [_], _ => rfl
  | _ :: _ :: _, h => simp at h

/-- A request's parameters are bytes of its frame after the second (R64). -/
theorem requestOf_params_length {policy : BitVec 2} {data : List Byte} {req : Request}
    (h : requestOf policy data = .ok req) : req.params.length + 2 ≤ data.length := by
  match data with
  | [] | [_] => cases h
  | b0 :: b1 :: rest =>
    dsimp only [requestOf] at h
    split_ifs at h
    cases h
    exact Nat.add_le_add_right (List.length_take_le' _ rest) 2

/-- A drop is never the fault (R109, R110). -/
theorem requestOf_ne_fault {policy : BitVec 2} {data : List Byte} {drop : TxnOutcome}
    (h : requestOf policy data = .error drop) : drop ≠ .faultPayloadTooLarge := by
  unfold requestOf at h
  split at h
  · split_ifs at h <;> cases h <;> decide
  · cases h; decide

/-- What DECODE makes of the received frame: the drop, or the request for DISPATCH (R58, R64). -/
def afterRequest (s : State) : Except TxnOutcome Request → Result
  | .error drop => raiseDrop drop s
  | .ok req => .next ((s.latchRequest req.sid req.params).setPhase .dispatch)

/-- The receive rows drop and extract as the request function says (R60..R68). -/
theorem exec_decodeReceive (b0 b1 : Byte) (rest : List Byte) (s : State) :
    exec (decodeReceive b0 b1 rest) s = afterRequest s (requestOf s.cfgPolicy (b0 :: b1 :: rest)) := by
  have hlen : (b0 :: b1 :: rest).length = 2 + rest.length := Nat.add_comm _ 2
  by_cases htype : pciType b0 = 0x0#4
  · rw [decodeReceive, if_pos htype, requestOf, hlen]
    simp only [htype, ne_eq, not_true_eq_false, if_false]
    obtain ⟨hlong, he⟩ | ⟨h0, hdrop, he⟩ | ⟨hl, hzero, he⟩ := decodeRequest_cases (pciNibble b0) b1 rest s
    · rw [if_pos hlong]; exact he
    · rw [if_neg (by simp [h0]), if_pos ⟨h0, by simp [hdrop]⟩]; exact he
    · rw [if_neg (Nat.not_lt.mpr hl), if_neg (by simpa using hzero)]; exact he
  · have hnum : b0.toNat / 16 ≠ 0 := fun h0 => htype (BitVec.eq_of_toNat_eq ((pciType_toNat b0).trans h0))
    rw [exec_decodeReceive_drop hnum, requestOf, if_pos htype]
    rfl

/-- DECODE is the request function on the received bytes (R58, R63). -/
theorem step_decode_eq {s : State} (hs : runsIn .decode s) (h8 : s.rxLen.toNat ≤ 8) :
    step s = afterRequest s (requestOf s.cfgPolicy s.rxBytes) := by
  have hlen := rxBytes_length h8
  by_cases h2 : s.rxLen.toNat < 2
  · rw [requestOf_tooShort _ (hlen.trans_lt h2), shortFramesAreDropped s hs h2]
    rfl
  · obtain ⟨b1, rest, hbytes, hrest⟩ := rxBytes_eq_cons (Nat.le_of_not_lt h2) h8
    rw [hbytes, ← exec_decodeReceive]
    refine decodePhaseRunsReceivedInstruction s _ hs (Nat.le_of_not_lt h2) h8 ?_
    rw [hbytes, decode_receive _ _ (by omega)]

/-- After the filter DECODE reads the frame that was offered (R56, R58). -/
theorem step_received_eq {s : State} {f : Frame} (hs : runsIn .idle s) (hf : f.data.length ≤ 8) (later : List Frame) :
    step (received f later s) = afterRequest (received f later s) (requestOf s.cfgPolicy f.data) := by
  obtain ⟨hc, hr, -⟩ := hs
  obtain ⟨hlen, hbytes⟩ : (received f later s).rxLen.toNat = f.data.length ∧ (received f later s).rxBytes = f.data :=
    latchFrame_rxBytes hf { s with rxPort := later }
  have hdecode : runsIn .decode (received f later s) := ⟨hc, hr, rfl⟩
  rw [step_decode_eq hdecode (hlen.trans_le hf), hbytes]
  rfl

/-! ## From the frame to the message -/

/-- The state in which DISPATCH reads the request of the frame `f` taken from the RX port. -/
def requested (f : Frame) (req : Request) (later : List Frame) (s : State) : State :=
  ((received f later s).latchRequest req.sid req.params).setPhase .dispatch

/-- The state in which HANDLER has taken the answer `a` to that request. -/
def answered (f : Frame) (req : Request) (later : List Frame) (a : HandlerAnswer) (more : List HandlerAnswer) (s : State) :
    State :=
  { callHandler req.sid req.params (requested f req later s) with hpPort := more, handlers := a.after }

section
variable {s : State} {f : Frame} {later : List Frame} {req : Request} (hs : runsIn .idle s) (hf : f.data.length ≤ 8)
  (hreq : requestOf s.cfgPolicy f.data = .ok req)
include hs hf hreq

/-- A frame that carries a request brings it to DISPATCH (R56, R57, R64). -/
theorem runFor_requested (hport : s.rxPort = f :: later) (hid : f.id = s.cfgReqId) (n : Nat) :
    runFor (n + 3) s = runFor n (requested f req later s) := by
  have hstep := step_received_eq hs hf later
  rw [hreq] at hstep
  exact (runFor_received hs hport hid hf (n + 1)).trans (runFor_succ hstep n)

/-- DISPATCH is Dispatch() of that request (R51, R70). -/
theorem step_requested (later : List Frame) :
    step (requested f req later s) = dispatch req.sid req.params (requested f req later s) := by
  obtain ⟨hc, hr, -⟩ := hs
  have hparams := requestOf_params_length hreq
  obtain ⟨hn, hread⟩ := latchRequest_reqParams (params := req.params) (by omega) req.sid (received f later s)
  calc step (requested f req later s)
      = runPhase .dispatch (requested f req later s) := step_eq_runPhase hc hr rfl
    _ = exec (decodeService req.sid (requested f req later s).reqParams) (requested f req later s) :=
      runPhase_dispatch (hn.trans_le (by omega))
    _ = exec (decodeService req.sid req.params) (requested f req later s) :=
      congrArg (fun params => exec (decodeService req.sid params) _) hread
    _ = _ := exec_serviceRow (decodeService_serviceRow req.sid req.params) _

/-- A request that passes dispatch calls the handler, whose answer is taken (R73). -/
theorem runFor_answered {a : HandlerAnswer} {more : List HandlerAnswer} (hport : s.rxPort = f :: later)
    (hid : f.id = s.cfgReqId) (hanswer : s.hpPort = a :: more)
    (hpresent : entryPresent (minEntry s.minParamLen req.sid) = true)
    (hmin : entryMin (minEntry s.minParamLen req.sid) ≤ req.params.length) {u : State}
    (hu : acceptReply a.reply (answered f req later a more s) = .next u) (n : Nat) :
    runFor (n + 5) s = runFor n u := by
  have hcall := (step_requested hs hf hreq later).trans (dispatch_calls hpresent hmin)
  have hruns := runFor_requested hs hf hreq hport hid (n + 2)
  obtain ⟨hc, hr, -⟩ := hs
  have hcalled : runsIn .handler (callHandler req.sid req.params (requested f req later s)) := ⟨hc, hr, rfl⟩
  exact hruns.trans ((runFor_succ hcall _).trans (runFor_succ ((step_handler hcalled hanswer).trans hu) n))

end

/-! ## From the message to the end -/

/-- The message `m` of outcome `o` stands in RSP_*, for ENCODE. -/
def storing (m : List Byte) (o : TxnOutcome) (s : State) : State :=
  { s with rspLen := BitVec.ofNat 12 m.length, rspBuf := s.rspBuf.writeBytes 0 m, out := o, phase := 0x5#4 }

/-- A run of reads finds the bytes each address holds. -/
theorem Memory.readBytes_eq {m : Memory} {a : Nat} {bytes : List Byte}
    (h : ∀ i, i < bytes.length → m.read (a + i) = bytes[i]?) : m.readBytes a bytes.length = some bytes := by
  obtain ⟨found, hfound⟩ := Memory.readBytes_isSome (m := m) (a := a) (n := bytes.length) fun i hi => by
    simp [h i hi, hi]
  obtain ⟨hlen, hread⟩ := Memory.readBytes_spec hfound
  refine hfound.trans (congrArg some (List.ext_getElem? fun i => ?_))
  by_cases hi : i < bytes.length
  · rw [← hread i hi, h i hi]
  · simp [Nat.le_of_not_lt hi, hlen]

/-- A message just stored for ENCODE is transmitted (R85, R86). -/
theorem delivers_storing {m : List Byte} (h1 : 1 ≤ m.length) (hm : m.length ≤ 4095) (o : TxnOutcome) (s : State)
    (hc : s.configurationLegal = true) (hr : s.resetLine = false)
    (hport : (encodeMessage m).length ≤ s.txPort.length) : Delivers (encodeMessage m) (storing m o s) := by
  have hlen : (BitVec.ofNat 12 m.length).toNat = m.length := by rw [BitVec.toNat_ofNat, Nat.mod_eq_of_lt (by omega)]
  have hread : ∀ i, i < m.length → (s.rspBuf.writeBytes 0 m).read (0 + i) = m[i]? := fun i hi => by
    rw [Memory.read_writeBytes, if_pos (by omega), Nat.zero_add, Nat.sub_zero]
  exact runsWith.delivers ⟨⟨hc, hr, rfl⟩, hlen.symm, Memory.readBytes_eq hread⟩ h1 hport

/-- A transaction that has ended has nothing to transmit (R110). -/
theorem delivers_nil (s : State) : Delivers [] (endTransaction s) :=
  ⟨0, s.rspLen, s.rspBuf, s.txOff, s.txSeq, by simp [runFor, afterDelivery, delivered, endTransaction]⟩

/-- From `s` the phases lead to `u`, where the transaction's result `r` stands and its frames are still to transmit: the
frame is taken, the handler called or not, the fault bit set or not, and the TX side is as it was. The fields with a default
hold by computation wherever `u` is written out from `s`. -/
structure Decides (r : TxnResult) (later : List Frame) (more : List HandlerAnswer) (after : HandlerState) (s u : State) :
    Prop where
  runs : ∃ k, ∀ n, runFor (n + k) s = runFor n u
  delivers : Delivers r.frames u
  faultBit : u.faultBit = (s.faultBit || decide (r.outcome = .faultPayloadTooLarge))
  hpLog : u.hpLog = s.hpLog ++ r.calls
  hpPort : u.hpPort = if r.calls = [] then s.hpPort else more := by rfl
  handlers : u.handlers = if r.calls = [] then s.handlers else after := by rfl
  out : u.out = r.outcome := by rfl
  cfgRespId : u.cfgRespId = s.cfgRespId := by rfl
  rxPort : u.rxPort = later := by rfl
  txPort : u.txPort = s.txPort := by rfl
  txLog : u.txLog = s.txLog := by rfl

/-- The outcome of a message is not the fault (R109). -/
theorem replyOutcome_ne_fault (reply : Reply) : replyOutcome reply ≠ .faultPayloadTooLarge := by
  cases reply <;> simp [replyOutcome]

/-- Every reply becomes a message (R74, R75). -/
theorem one_le_replyMessage_length (sid : Byte) (reply : Reply) : 1 ≤ (replyMessage sid reply).length := by
  cases reply with
  | positive data => exact Nat.le_add_left 1 _
  | negative code => exact (by decide : 1 ≤ 3)

section
variable {s : State} {f : Frame} {later : List Frame} {req : Request} {a : HandlerAnswer} {more : List HandlerAnswer}
  (hs : runsIn .idle s) (hport : s.rxPort = f :: later) (hf : f.data.length ≤ 8)
include hs hport hf

/-- A frame on another identifier is dropped (R57). -/
theorem decides_wrongId (hid : f.id ≠ s.cfgReqId) (more : List HandlerAnswer) (after : HandlerState) :
    ∃ u, Decides { outcome := .dropWrongId, frames := [], calls := [] } later more after s u := by
  obtain ⟨hc, hr, hp⟩ := hs
  have haccept := (step_eq_runPhase hc hr hp).trans (acceptFrame_cons hport hf)
  have hfilter : runsIn .filter ((State.latchFrame f { s with rxPort := later }).setPhase .filter) := ⟨hc, hr, rfl⟩
  have hdrop := (filterComparesTheIdentifier _ hfilter).1 hid
  exact ⟨_, {
    runs := ⟨2, fun n => (runFor_succ haccept _).trans (runFor_succ hdrop n)⟩
    delivers := delivers_nil (State.setOut .dropWrongId (received f later s))
    faultBit := (Bool.or_false _).symm
    hpLog := (List.append_nil _).symm }⟩

/-- A frame that carries no request is dropped (R63). -/
theorem decides_dropped (hid : f.id = s.cfgReqId) {drop : TxnOutcome} (hdrop : requestOf s.cfgPolicy f.data = .error drop)
    (more : List HandlerAnswer) (after : HandlerState) :
    ∃ u, Decides { outcome := drop, frames := [], calls := [] } later more after s u := by
  have hstep := step_received_eq hs hf later
  rw [hdrop] at hstep
  exact ⟨_, {
    runs := ⟨3, fun n => (runFor_received hs hport hid hf (n + 1)).trans (runFor_succ hstep n)⟩
    delivers := delivers_nil (State.setOut drop (received f later s))
    faultBit := by simp [requestOf_ne_fault hdrop, received]
    hpLog := (List.append_nil _).symm }⟩

variable (hid : f.id = s.cfgReqId) (hreq : requestOf s.cfgPolicy f.data = .ok req)
include hid hreq

/-- A request that fails in dispatch gets a negative response (R71, R72). -/
theorem decides_refused {code : Byte} {o : TxnOutcome} (ho : o ≠ .faultPayloadTooLarge)
    (hd : dispatch req.sid req.params (requested f req later s) = raiseNrc req.sid code o (requested f req later s))
    (htx : (negativeResponse req.sid code).length ≤ s.txPort.length) (more : List HandlerAnswer) (after : HandlerState) :
    ∃ u, Decides { outcome := o, frames := negativeResponse req.sid code, calls := [] } later more after s u := by
  have hstep := (step_requested hs hf hreq later).trans hd
  have hruns := runFor_requested hs hf hreq hport hid
  obtain ⟨hc, hr, -⟩ := hs
  exact ⟨storing [0x7F#8, req.sid, code] o (requested f req later s), {
    runs := ⟨4, fun n => (hruns (n + 1)).trans (runFor_succ hstep n)⟩
    delivers := delivers_storing (m := [0x7F#8, req.sid, code]) (by simp) (by simp) o _ hc hr htx
    faultBit := by simp [ho, storing, requested, received]
    hpLog := (List.append_nil _).symm }⟩

variable (hanswer : s.hpPort = a :: more) (hpresent : entryPresent (minEntry s.minParamLen req.sid) = true)
  (hmin : entryMin (minEntry s.minParamLen req.sid) ≤ req.params.length)
include hanswer hpresent hmin

/-- A reply that does not fit is the fault (R84, R113). -/
theorem decides_oversized {data : List Byte} (hdata : a.reply = .positive data) (hlong : 4094 < data.length) :
    ∃ u, Decides { outcome := .faultPayloadTooLarge, frames := [], calls := [req] } later more a.after s u := by
  have haccept := hdata ▸ acceptReply_oversized hlong (answered f req later a more s)
  exact ⟨_, {
    runs := ⟨5, runFor_answered hs hf hreq hport hid hanswer hpresent hmin haccept⟩
    delivers := delivers_nil ((State.setOut .faultPayloadTooLarge (answered f req later a more s)).setFault)
    faultBit := (Bool.or_true _).symm
    hpLog := rfl }⟩

/-- Every other reply becomes the response (R74, R75). -/
theorem decides_replied (hbounded : replyBounded a.reply = true)
    (htx : (encodeMessage (replyMessage req.sid a.reply)).length ≤ s.txPort.length) :
    ∃ u, Decides { outcome := replyOutcome a.reply, frames := encodeMessage (replyMessage req.sid a.reply), calls := [req] }
      later more a.after s u := by
  have hruns := runFor_answered hs hf hreq hport hid hanswer hpresent hmin (acceptReply_of_bounded hbounded _)
  have hm1 := one_le_replyMessage_length req.sid a.reply
  have hm := replyMessage_length_le hbounded req.sid
  obtain ⟨hc, hr, -⟩ := hs
  exact ⟨storing (replyMessage req.sid a.reply) (replyOutcome a.reply) (answered f req later a more s), {
    runs := ⟨5, hruns⟩
    delivers := delivers_storing hm1 hm _ _ hc hr htx
    faultBit := by simp [replyOutcome_ne_fault, storing, answered, requested, received]
    hpLog := rfl }⟩

end

/-- Every transaction comes to such a state (R114). -/
theorem TransactionCase.decides {s : State} {f : Frame} {later : List Frame} {a : HandlerAnswer} {more : List HandlerAnswer}
    {r : TxnResult} (hcase : TransactionCase s.configuration f a.reply r) (hs : runsIn .idle s)
    (hport : s.rxPort = f :: later) (hf : f.data.length ≤ 8) (hanswer : s.hpPort = a :: more)
    (htx : r.frames.length ≤ s.txPort.length) : ∃ u, Decides r later more a.after s u := by
  cases hcase with
  | wrongId hid => exact decides_wrongId hs hport hf hid more a.after
  | dropped hid drop hdrop => exact decides_dropped hs hport hf hid hdrop more a.after
  | absent hid req hreq habsent =>
    have hd := dispatch_absent (s := requested f req later s) habsent req.params
    exact decides_refused hs hport hf hid hreq (by decide) hd htx more a.after
  | short hid req hreq hpresent hshort =>
    have hd := dispatch_short (s := requested f req later s) hpresent hshort
    exact decides_refused hs hport hf hid hreq (by decide) hd htx more a.after
  | oversized hid req hreq hpresent hmin data hdata hlong =>
    exact decides_oversized hs hport hf hid hreq hanswer hpresent hmin hdata hlong
  | replied hid req hreq hpresent hmin hbounded =>
    exact decides_replied hs hport hf hid hreq hanswer hpresent hmin hbounded htx

/-- Settles O54: the phases lead to the transaction's result, and the segmenter's run ends it as the TX port answers. -/
theorem phasesRefineTheTransaction : Obligations.PhasesRefineTheTransaction := by
  intro s f later a more r hs hport hf hanswer hr htx
  have hcase : TransactionCase s.configuration f a.reply r := hr ▸ transaction_case s.configuration f a.reply
  obtain ⟨u, h⟩ := hcase.decides hs hport hf hanswer htx
  obtain ⟨k, hruns⟩ := h.runs
  obtain ⟨n, len, buf, off, seq, hrun⟩ := h.delivers
  refine ⟨n + k, _, (hruns n).trans hrun, rfl, h.rxPort, ?_, ?_, ?_, h.hpLog, h.hpPort, h.faultBit, h.handlers⟩
  all_goals simp only [afterDelivery, endTransaction, h.out, h.cfgRespId, h.txPort, h.txLog]

/-! ## The state behind the handler port -/

/-- The state with another environment behind the handler port (R25). -/
def State.withHandlers (h : HandlerState) (s : State) : State := { s with handlers := h }

/-- A result with another environment behind the handler port. -/
def Result.withHandlers (h : HandlerState) (r : Result) : Result := r.andThen fun t => .next (t.withHandlers h)

/-- A failed fetch at DECODE is a stop (R19). -/
theorem fetchReceived_stop {s : State} (stop : Result) (hf : fetchReceived s = .error stop) (u : State) :
    stop ≠ .next u := by
  unfold fetchReceived at hf
  split at hf <;> cases hf
  exact fun he => nomatch he

/-- So is one at DISPATCH (R20). -/
theorem fetchRequest_stop {s : State} (stop : Result) (hf : fetchRequest s = .error stop) (u : State) :
    stop ≠ .next u := by
  unfold fetchRequest at hf
  split at hf <;> cases hf
  exact fun he => nomatch he

section
variable (h : HandlerState) (s : State)

/-- A test of the block's registers goes the same way with another environment. -/
theorem ite_withHandlers {c : Prop} [Decidable c] {a b a' b' : Result} (ha : a' = a.withHandlers h)
    (hb : b' = b.withHandlers h) : (if c then a' else b') = (if c then a else b : Result).withHandlers h := by
  split
  · exact ha
  · exact hb

/-- DecodeRequest() tests CFG_POLICY and the frame (R61, R62). -/
theorem decodeRequest_withHandlers (l : Nibble) (sid : Byte) (rest : List Byte) :
    decodeRequest l sid rest (s.withHandlers h) = (decodeRequest l sid rest s).withHandlers h :=
  ite_withHandlers h rfl (ite_withHandlers h (ite_withHandlers h rfl rfl) rfl)

/-- Dispatch() tests MIN_PARAM_LEN and the request (R71, R72). -/
theorem dispatch_withHandlers (sid : Byte) (params : List Byte) :
    dispatch sid params (s.withHandlers h) = (dispatch sid params s).withHandlers h :=
  ite_withHandlers h rfl (ite_withHandlers h rfl rfl)

/-- Emit looks at the TX port (R93). -/
theorem emit_withHandlers (bytes : List Byte) {onOk : State → State}
    (hok : ∀ t, onOk (t.withHandlers h) = (onOk t).withHandlers h) :
    emit bytes onOk (s.withHandlers h) = (emit bytes onOk s).withHandlers h := by
  obtain ⟨hport, he⟩ | ⟨later, hport, he⟩ | ⟨later, hport, he⟩ := emit_cases bytes onOk s <;> rw [he]
  · exact emit_waits hport
  · exact (emit_ok (s := s.withHandlers h) hport).trans (congrArg _ (hok (s.sent bytes .ok later)))
  · exact emit_fail hport

/-- What a transmit row writes before its frame does not depend on the environment (R76, R87). -/
theorem emitBase_withHandlers (i : Instr) : emitBase i (s.withHandlers h) = (emitBase i s).withHandlers h := by
  cases i <;> rfl

/-- Nor does what it writes after an accepted frame (R87, R88, R89). -/
theorem emitDone_withHandlers (i : Instr) : emitDone i (s.withHandlers h) = (emitDone i s).withHandlers h := by
  cases i with
  | txCF n data =>
    obtain ⟨hmore, he⟩ | ⟨hend, he⟩ := afterCF_cases data.length n s <;> rw [emitDone, emitDone, he]
    · exact if_pos hmore
    · exact if_neg (Nat.not_lt.mpr hend)
  | _ => rfl

/-- Every instruction does to the block what it does with another environment (R118). -/
theorem exec_withHandlers (i : Instr) : exec i (s.withHandlers h) = Result.withHandlers h (exec i s) := by
  cases i with
  | rxSF l sid rest => exact decodeRequest_withHandlers h s l sid rest
  | rxFF | rxCF | rxOther3 | rxOther4to7 | rxOther8toF => rfl
  | dsc params | er params | cdtci params | rdbi params | rmba params | sa params =>
    exact dispatch_withHandlers h s _ params
  | sidUnsupported sid params => exact dispatch_withHandlers h s sid params
  | txSF | txFF | txCF | txNR =>
    rw [exec_transmit (s := s) rfl, exec_transmit (s := s.withHandlers h) rfl, emitBase_withHandlers]
    exact emit_withHandlers h _ _ fun t => emitDone_withHandlers h t _

/-- So does an instruction fetched. -/
theorem runFetched_withHandlers (st : Stage) {fetched : Except Result (List Byte)}
    (hstop : ∀ stop, fetched = .error stop → ∀ u, stop ≠ .next u) :
    runFetched st fetched (s.withHandlers h) = (runFetched st fetched s).withHandlers h := by
  cases fetched with
  | error stop =>
    cases stop with
    | next u => exact absurd rfl (hstop _ rfl u)
    | fault | refused => rfl
  | ok bytes =>
    cases hd : decode st bytes with
    | error e => simp [runFetched, hd, Result.withHandlers]
    | ok i => rw [runFetched_ok hd, runFetched_ok hd, exec_withHandlers]

/-- So does every phase but HANDLER. -/
theorem runPhase_withHandlers {p : Phase} (hp : p ≠ .handler) :
    runPhase p (s.withHandlers h) = (runPhase p s).withHandlers h := by
  cases p with
  | idle =>
    cases hport : s.rxPort with
    | nil =>
      have hother : (s.withHandlers h).rxPort = [] := hport
      simp only [runPhase, acceptFrame, hport, hother, Result.withHandlers, andThen_next]
    | cons f later =>
      have hother : (s.withHandlers h).rxPort = f :: later := hport
      simp only [runPhase, acceptFrame, hport, hother]
      exact ite_withHandlers h rfl rfl
  | filter => exact ite_withHandlers h rfl rfl
  | decode => exact ite_withHandlers h rfl (runFetched_withHandlers h s .receive fetchReceived_stop)
  | dispatch => exact runFetched_withHandlers h s .dispatch fetchRequest_stop
  | handler => exact absurd rfl hp
  | encode => exact ite_withHandlers h rfl (ite_withHandlers h rfl rfl)
  | sendSF => exact runFetched_withHandlers h s .transmit fetchSingle_stop
  | sendFF => exact runFetched_withHandlers h s .transmit fetchFirst_stop
  | sendCF => exact runFetched_withHandlers h s .transmit fetchConsecutive_stop

/-- HANDLER does the same with another environment, and replaces it where it takes an answer (R25, R118). -/
theorem takeAnswer_withHandlers {t : State} (hrun : takeAnswer s = .next t) :
    ∃ h', takeAnswer (s.withHandlers h) = .next (t.withHandlers h') := by
  cases hport : s.hpPort with
  | nil =>
    have hother : (s.withHandlers h).hpPort = [] := hport
    simp only [takeAnswer, hport] at hrun
    cases hrun
    exact ⟨h, by simp only [takeAnswer, hother]⟩
  | cons answer later =>
    have hother : (s.withHandlers h).hpPort = answer :: later := hport
    simp only [takeAnswer, hport] at hrun
    exact ⟨t.handlers, by simp only [takeAnswer, hother]; exact hrun⟩

end

/-- Settles O39: every phase but HANDLER carries the other environment along; HANDLER takes it from the same answer. -/
theorem blockIsIndependentOfOutsideState : Obligations.BlockIsIndependentOfOutsideState := by
  intro s t h hr hstep
  obtain ⟨hc, ⟨hreset, -⟩ | ⟨-, p, hp, hrun⟩⟩ := step_inversion hstep
  · rw [hr] at hreset; cases hreset
  have hother : step (s.withHandlers h) = runPhase p (s.withHandlers h) := step_eq_runPhase hc hr hp
  by_cases hhandler : p = .handler
  · subst hhandler
    obtain ⟨h', hsame⟩ := takeAnswer_withHandlers h s hrun
    exact ⟨h', hother.trans hsame, fun hne => absurd hp hne⟩
  · refine ⟨h, ?_, fun _ => rfl⟩
    exact hother.trans ((runPhase_withHandlers h s hhandler).trans (congrArg (Result.withHandlers h) hrun))

end Sys2Proof.Machine
end

section
/-! SUPPORT. The family of 70_reset_and_hazards.md: what reset gives (R124, R126), and that every transaction ends (R132).
The second goes by a measure: `State.stepsLeft` falls with every step of a state that lacks no answer (`Supplied`). -/

namespace Sys2Proof.Machine

/-! ## Reset -/

/-- With a legal configuration, an asserted reset comes before every phase (R124). -/
theorem step_of_reset {s : State} (hc : s.configurationLegal = true) (hr : s.resetLine = true) :
    step s = .next (applyReset s) := by
  simp [step, hc, hr]

/-- Reset's STATUS, whatever the configuration (R26). -/
theorem resetWith_status (c : Configuration) (run : Nat) : (State.resetWith c run).status = 0x00#8 := by
  show 0b00#2 ++ BitVec.ofBool false ++ BitVec.ofBool false ++ 0x0#4 = 0x00#8
  decide

/-- In a table whose listed entries are all present, the present SIDs are the listed ones (R17). -/
theorem entryPresent_minEntry_iff {table : List (Byte × BitVec 4)} (h : table.all (fun row => entryPresent row.2) = true)
    (sid : Byte) : entryPresent (minEntry table sid) = true ↔ sid ∈ table.map Prod.fst := by
  induction table with
  | nil => simp [minEntry, entryPresent]
  | cons row more ih =>
    obtain ⟨hrow, hmore⟩ := Bool.and_eq_true_iff.mp h
    rw [minEntry, List.map_cons, List.mem_cons]
    by_cases hsid : row.1 = sid
    · simp [hsid, hrow]
    · rw [if_neg hsid, ih hmore, or_iff_right (Ne.symm hsid)]

/-- Settles O41: the reset state's registers, and the default table, whose six entries are all present. -/
theorem resetRestoresTheBlock : Obligations.ResetRestoresTheBlock :=
  ⟨fun s hc hr => ⟨applyReset s, step_of_reset hc hr, rfl, rfl, rfl, rfl, rfl, rfl, rfl, rfl, rfl, rfl, rfl⟩,
    fun c run => ⟨rfl, resetWith_status c run, rfl⟩, rfl, rfl,
    entryPresent_minEntry_iff (table := Config.defaultMinParamLen) (by decide)⟩

/-! ## What a transaction can still need -/

/-- The most frames the transaction can still emit: one in SEND_SF, the rest of the message in SEND_CF, and before that
R97's count for the longest message, a first frame and 585 consecutive frames. -/
def State.framesLeft (s : State) : Nat :=
  match Phase.ofCode s.phase with
  | none | some .idle => 0
  | some .sendSF => 1
  | some .sendCF => (s.rspLen.toNat - s.txOff.toNat + 6) / 7
  | some _ => 586

/-- The most phases the transaction can still go through before the one of its first frame (R13). -/
def State.phasesLeft (s : State) : Nat :=
  match Phase.ofCode s.phase with
  | some .filter => 5
  | some .decode => 4
  | some .dispatch => 3
  | some .handler => 2
  | some .encode => 1
  | _ => 0

/-- The most steps the transaction can still take. -/
def State.stepsLeft (s : State) : Nat := s.phasesLeft + s.framesLeft

/-- The environment answers everything the rest of the transaction can ask for (R132): the handler where HANDLER has not
been left, the transport for every frame. -/
structure Supplied (s : State) : Prop where
  inv : Inv s
  resetLine : s.resetLine = false
  answer : 1 < s.phasesLeft → s.hpPort ≠ []
  frames : s.framesLeft ≤ s.txPort.length

/-- No transaction needs more than 586 frames: in SEND_CF at most 4089 bytes of the message are left (R91, R97). -/
theorem Inv.framesLeft_le {s : State} (h : Inv s) : s.framesLeft ≤ 586 := by
  obtain ⟨p, hp, hready⟩ := h.phase
  cases p with
  | sendCF =>
    obtain ⟨-, -, h6, -⟩ := hready
    have hT := s.rspLen.isLt
    simp only [State.framesLeft, hp]
    omega
  | _ => simp [State.framesLeft, hp]

theorem phasesLeft_le (s : State) : s.phasesLeft ≤ 5 := by
  unfold State.phasesLeft
  split <;> decide

/-- In IDLE nothing is left. -/
theorem idle_left {s : State} (hp : s.phase = 0x0#4) : s.phasesLeft = 0 ∧ s.framesLeft = 0 := by
  simp [State.phasesLeft, State.framesLeft, Phase.ofCode, hp]

theorem framesLeft_sendSF {s : State} (hp : s.phase = 0x6#4) : s.framesLeft = 1 := by
  simp [State.framesLeft, Phase.ofCode, hp]

theorem framesLeft_sendFF {s : State} (hp : s.phase = 0x7#4) : s.framesLeft = 586 := by
  simp [State.framesLeft, Phase.ofCode, hp]

theorem framesLeft_sendCF {s : State} (hp : s.phase = 0x8#4) :
    s.framesLeft = (s.rspLen.toNat - s.txOff.toNat + 6) / 7 := by
  simp [State.framesLeft, Phase.ofCode, hp]

/-- A phase of the segmenter has at least its own frame to emit. -/
theorem Inv.framesLeft_pos {s : State} (h : Inv s) (hp : s.phase = 0x6#4 ∨ s.phase = 0x7#4 ∨ s.phase = 0x8#4) :
    0 < s.framesLeft := by
  obtain hp | hp | hp := hp
  · rw [framesLeft_sendSF hp]; decide
  · rw [framesLeft_sendFF hp]; decide
  · obtain ⟨-, -, -, hlt, -⟩ := h.ready (p := .sendCF) hp
    rw [framesLeft_sendCF hp]
    omega

/-! ## Every step uses some of it up -/

/-- The first frame leaves at most 585 consecutive frames (R88, R97). -/
theorem framesLeft_afterFirst {s : State} (hp : s.phase = 0x7#4) :
    ((s.setTx 6#12 1#4).setPhase .sendCF).framesLeft < s.framesLeft := by
  have hT := s.rspLen.isLt
  rw [framesLeft_sendFF hp, framesLeft_sendCF rfl, setPhase_rspLen, setPhase_txOff, setTx_rspLen, setTx_txOff,
    BitVec.toNat_ofNat]
  omega

/-- A consecutive frame that is not the last carries 7 bytes, so it is one frame less (R89, R90). -/
theorem framesLeft_afterConsecutive {s : State} (hp : s.phase = 0x8#4) {n : Nat} (seq : Nibble)
    (hn : n = min 7 (s.rspLen.toNat - s.txOff.toNat)) (hmore : (s.txOff + BitVec.ofNat 12 n).toNat < s.rspLen.toNat) :
    (s.setTx (s.txOff + BitVec.ofNat 12 n) seq).framesLeft < s.framesLeft := by
  have hT := s.rspLen.isLt
  have hoff := s.txOff.isLt
  rw [framesLeft_sendCF hp, framesLeft_sendCF (s := s.setTx _ seq) hp, setTx_rspLen, setTx_txOff]
  rw [advance_toNat (by omega)] at hmore ⊢
  omega

/-- An accepted frame is one frame less to emit (R87, R88, R89). -/
theorem Sends.emitted_left {s : State} {i : Instr} (hi : Sends s i) (h : Inv s)
    (hp : s.phase = 0x6#4 ∨ s.phase = 0x7#4 ∨ s.phase = 0x8#4) (bytes : List Byte) (later : List TxStatus) :
    (emitDone i (s.sent bytes .ok later)).phasesLeft = 0
    ∧ (emitDone i (s.sent bytes .ok later)).framesLeft < s.framesLeft := by
  have hend {t : State} (ht : t.phase = 0x0#4) : t.phasesLeft = 0 ∧ t.framesLeft < s.framesLeft :=
    ⟨(idle_left ht).1, (idle_left ht).2.trans_lt (h.framesLeft_pos hp)⟩
  obtain ⟨-, hdone⟩ | ⟨h7, data, rfl⟩ | ⟨h8, data, hlen, rfl⟩ := hi.row_cases hp
  · rw [hdone]; exact hend rfl
  · exact ⟨rfl, framesLeft_afterFirst (s := s.sent bytes .ok later) h7⟩
  · obtain ⟨hmore, he⟩ | ⟨-, he⟩ := afterCF_cases data.length s.txSeq (s.sent bytes .ok later) <;> rw [emitDone, he]
    · refine ⟨?_, framesLeft_afterConsecutive (s := s.sent bytes .ok later) h8 _ hlen hmore⟩
      simp [State.phasesLeft, Phase.ofCode, h8]
    · exact hend rfl

/-- Outside IDLE, a step of a supplied state either passes a phase before the first frame, or gets one frame answered. -/
theorem StepEffect.uses_up {s t : State} (he : StepEffect s t) (h : Supplied s) (hbusy : s.phase ≠ 0x0#4) :
    (t.phasesLeft < s.phasesLeft ∧ t.framesLeft ≤ s.framesLeft ∧ t.txPort = s.txPort
      ∧ (1 < t.phasesLeft → t.hpPort = s.hpPort))
    ∨ (t.phasesLeft = 0 ∧ t.framesLeft < s.framesLeft ∧ s.txPort.length = t.txPort.length + 1) := by
  obtain ⟨hinv, hr, hanswer, hframes⟩ := h
  cases he with
  | reset hreset => rw [hr] at hreset; cases hreset
  | noFrame hp | accepted hp => exact absurd hp hbusy
  | noAnswer hp hport => exact absurd hport (hanswer (by simp [State.phasesLeft, Phase.ofCode, hp]))
  | noStatus hp i hi hport =>
    rw [hport] at hframes
    exact absurd (hinv.framesLeft_pos hp) (Nat.not_lt.mpr hframes)
  | emitted hp i hi later hport =>
    rw [hi.emitBase_eq_self hp hinv.rspBuf]
    obtain ⟨hphases, hless⟩ := hi.emitted_left hinv hp (encode i) later
    exact .inr ⟨hphases, hless, by rw [emitDone_txPort, hport]; rfl⟩
  | failed hp i hi later hport =>
    exact .inr ⟨(idle_left rfl).1, (idle_left rfl).2.trans_lt (hinv.framesLeft_pos hp), by rw [hport]; rfl⟩
  | wrongId hp | rightId hp | dropped hp | decoded hp | answeredNr hp | called hp | positive hp | oversized hp | negative hp
  | single hp | multi hp => exact .inl (by simp [State.phasesLeft, State.framesLeft, Phase.ofCode, hp])

@[simp] theorem emitBase_resetLine (i : Instr) (s : State) : (emitBase i s).resetLine = s.resetLine := by cases i <;> rfl

@[simp] theorem emitDone_resetLine (i : Instr) (s : State) : (emitDone i s).resetLine = s.resetLine := by
  obtain ⟨_, _, _, _, he⟩ := emitDone_frame i s
  rw [he]

/-- A step does not assert reset (R124). -/
theorem StepEffect.resetLine_eq {s t : State} (he : StepEffect s t) (hr : s.resetLine = false) : t.resetLine = false := by
  cases he with
  | reset => rfl
  | noStatus | emitted | failed => simpa using hr
  | _ => exact hr

/-- Outside IDLE, a supplied state steps to a supplied state with fewer steps left. -/
theorem Supplied.exists_step {s : State} (h : Supplied s) (hbusy : s.phase ≠ 0x0#4) :
    ∃ t, step s = .next t ∧ Supplied t ∧ t.stepsLeft < s.stepsLeft := by
  obtain ⟨t, hstep⟩ := blockNeverStops s h.inv
  have hinv := stepKeepsTheInvariant s t h.inv hstep
  have hr := (step_effect hstep).resetLine_eq h.resetLine
  have hframes := h.frames
  refine ⟨t, hstep, ?_⟩
  simp only [State.stepsLeft]
  obtain ⟨hphases, hfewer, htx, hhp⟩ | ⟨hphases, hless, htx⟩ := (step_effect hstep).uses_up h hbusy
  · refine ⟨⟨hinv, hr, fun hahead => ?_, ?_⟩, ?_⟩
    · rw [hhp hahead]; exact h.answer (hahead.trans hphases)
    · rw [htx]; exact hfewer.trans hframes
    · omega
  · exact ⟨⟨hinv, hr, fun hahead => by omega, by omega⟩, by omega⟩

/-- A supplied transaction ends within the steps that are left. -/
theorem Supplied.reaches_idle {s : State} (h : Supplied s) :
    ∃ n t, n ≤ s.stepsLeft ∧ runFor n s = some t ∧ t.phase = 0x0#4 := by
  by_cases hidle : s.phase = 0x0#4
  · exact ⟨0, s, Nat.zero_le _, rfl, hidle⟩
  · obtain ⟨t, hstep, ht, hlt⟩ := h.exists_step hidle
    obtain ⟨n, u, hn, hrun, hu⟩ := ht.reaches_idle
    exact ⟨n + 1, u, by omega, (runFor_succ hstep n).trans hrun, hu⟩
termination_by s.stepsLeft

/-- Settles O47: at most 5 phases and 586 frames are left, and the ports' answers are enough for them. -/
theorem everyTransactionEnds : Obligations.EveryTransactionEnds := by
  intro s h hr _ hanswer hframes
  have hsupplied : Supplied s := ⟨h, hr, fun _ => List.length_pos_iff.mp hanswer, h.framesLeft_le.trans hframes⟩
  obtain ⟨n, t, hn, hrun, ht⟩ := hsupplied.reaches_idle
  exact ⟨n, t, hn.trans (Nat.add_le_add (phasesLeft_le s) h.framesLeft_le), hrun, ht⟩

end Sys2Proof.Machine
end
